-- ==== Sys2Proof/Word.lean ====
section
/-! DEFINITION. The word types of the block (spec/00_scope.md R9, last paragraph, and R10): host data 32 bits,
bytes 8 bits, the host port's word index 6 bits, the bus address 7 bits. A one-bit state field is a `Bool`. -/

namespace Sys2Proof

/-- Host data, `now` and the reading registers: 32 bits (R9). -/
abbrev Word := BitVec 32

/-- A bus byte, a buffer byte or a count: 8 bits (R9). -/
abbrev Byte := BitVec 8

/-- A word index on the host port (R80): 64 words. -/
abbrev Idx := BitVec 6

/-- A 7-bit I2C target address (R80). -/
abbrev BusAddr := BitVec 7

/-- A raw 20-bit sensor value (R255). -/
abbrev Raw := BitVec 20

end Sys2Proof
end

