-- ==== Sys2Proof/Config.lean ====
section
/-! DEFINITION. What an implementation fixes (spec/00_scope.md R9) and the free values. `Params` holds the open
parameters with the proof that they are legal, so an illegal instance cannot be built. `Pins` is what the outside
world presents to the block for one step. The `opaque` constants have no body: no proof can see their values. -/

namespace Sys2Proof

/-- How `rh` and `rt` are cut from the READ bytes: the reference layout of R256, or any other function of the bytes
(R256: "any function from the READ bytes to a pair of 20-bit values"), named by a number and interpreted by the
opaque `Config.rawLayout`. -/
inductive RawLayout where
  | reference
  | other (k : Nat)
deriving DecidableEq, Repr

/-- R9: the legal values of the parameters. `QUANTUM` and `T_SETTLE` are read by no rule and are not here; `CAL_BIT`
is fixed. -/
def legalParams (wmax rmax : Nat) (trigger : List Byte) (readLen : Nat) (busyBit : Fin 8) : Bool :=
  decide (3 ≤ wmax) && decide (wmax ≤ 16) && decide (6 ≤ rmax) && decide (rmax ≤ 16)
    && decide (1 ≤ trigger.length) && decide (trigger.length ≤ wmax)
    && decide (6 ≤ readLen) && decide (readLen ≤ rmax) && decide (busyBit ≠ 3)

/-- R9: the implementation parameters of one instance of the block, with the proof that they are legal. -/
structure Params where
  /-- `WMAX`, the write buffer's capacity in bytes. -/
  wmax : Nat
  /-- `RMAX`, the read buffer's capacity in bytes. -/
  rmax : Nat
  /-- `SENSOR_ADDR`, the sensor's bus address. -/
  sensorAddr : BusAddr
  /-- `TRIGGER_CMD`, the bytes of the trigger transaction. -/
  trigger : List Byte
  /-- `READ_LEN`, the bytes of the READ transaction. -/
  readLen : Nat
  /-- `BUSY_BIT`, the bit of the status byte that means busy. -/
  busyBit : Fin 8
  /-- `RAW_LAYOUT`, how `rh` and `rt` are cut from the READ bytes. -/
  rawLayout : RawLayout
  legal : legalParams wmax rmax trigger readLen busyBit = true
deriving DecidableEq, Repr

/-- R9: the reference parameters, the ones the spec's vectors use. -/
def Params.reference : Params where
  wmax := 16
  rmax := 16
  sensorAddr := 0x38#7
  trigger := [0xAC#8, 0x33#8, 0x00#8]
  readLen := 6
  busyBit := 7
  rawLayout := .reference
  legal := by decide

/-- What the outside world presents to the block for one step: which agent acts (R8, R111), the host's access word
(R112), the peer's outputs on the two lines (R90: a draw at each read; no step reads one line twice, R392) and the
`now` input (R353). -/
structure Pins where
  /-- The EV code of the agent that acts. -/
  ev : BitVec 3
  /-- The HOSTOP word of the host's access, used when the agent is HOST. -/
  host : BitVec 39
  /-- The peer's output on SCL at this step's read (`true` = released). -/
  scl : Bool
  /-- The peer's output on SDA at this step's read (`true` = released). -/
  sda : Bool
  /-- The 32-bit time input. -/
  now : Word
deriving DecidableEq, Repr, Inhabited

/-- Free value: the environment's choice at step number `n`, where the state supplies none (R8, R90, D24, D47, D48). -/
opaque Config.freePins : Nat → Pins

/-- Free value: the raw layout number `k` of R256, any function from the READ bytes to the pair (`rh`, `rt`). -/
opaque Config.rawLayout : Nat → List Byte → Raw × Raw

/-- Free value: byte `i` of a sequencer transaction past its command bytes, which R150 copies into `e_wdata` and R234
does not state; `n` is the step number. -/
opaque Config.unstatedByte : Nat → Nat → Byte

end Sys2Proof
end

