-- ==== Sys2Proof/Syntax.lean ====
section
/-! DEFINITION. The operations of the block (spec/00_scope.md R3), one constructor for each mnemonic of
spec/opcode_table.json (spec/30_encoding.md R118, R120, R121, R122). A mnemonic with several table rows
(RD.UNMAPPED, WR.RO, WR.UNMAPPED) is one operation with one rule; its constructor holds the word index, which says
which of the rows it is. Operands are the ones the operation's own rule lists under "Operands" as coming from the
word: `data` for the writes that store, the buffer index `i` (R116), the word index where a row covers several. -/

namespace Sys2Proof

/-- The formats of R110. -/
inductive Format where
  | ev | hostop | uop | seqop
deriving DecidableEq, Repr

/-- The operations, in the order of spec/opcode_table.json. -/
inductive Instr where
  -- EV (R122)
  | evHost
  | evTick
  | evPoll
  | evDispatch
  | evReset
  -- HOSTOP: commands (R300 to R304)
  | cmdNop
  | cmdEngBegin
  | cmdSeqInit
  | cmdSeqRequestRead
  /-- `op` is `data[1:0]`; the command code is `4 + op`. -/
  | cmdReserved (op : BitVec 2)
  -- HOSTOP: reads (R310 to R324)
  | rdCmd
  | rdStatus
  | rdTxnAddr
  | rdTxnWcnt
  | rdTxnRcnt
  | rdTxnFlags
  | rdEPos
  | rdEScratch
  | rdSHum
  | rdSTemp
  | rdSTs
  | rdParams
  | rdWbuf (i : BitVec 4)
  | rdRbuf (i : BitVec 4)
  | rdUnmapped (idx : Idx)
  -- HOSTOP: writes (R325 to R331)
  | wrTxnAddr (data : Word)
  | wrTxnWcnt (data : Word)
  | wrTxnRcnt (data : Word)
  | wrTxnFlags (data : Word)
  | wrWbuf (i : BitVec 4) (data : Word)
  | wrRo (idx : Idx)
  | wrUnmapped (idx : Idx)
  -- UOP (R162 to R175)
  | uStartRs
  | uStart
  | uTxBitH0
  | uTxBitH1
  | uTxAckH0
  | uTxAckPoll
  | uTxAckH1
  | uRxBitH0
  | uRxBitPoll
  | uRxBitH1
  | uRxMackH0
  | uRxMackH1
  | uStopH0
  | uStopH1
  -- SEQOP (R241 to R247)
  | sFail
  | sResetOk
  | sCalOk
  | sPollcalOk
  | sTrigOk
  | sPollmeasOk
  | sReadOk
deriving DecidableEq, Repr

end Sys2Proof
end

