-- ==== Sys2Proof/WellFormed.lean ====
section
/-! DEFINITION. Which operations are well formed. Operand widths hold by type; what is left is the word index: it
must lie where the register map (spec/20_memory.md R84, with spec/30_encoding.md R118 for a small WMAX or RMAX)
puts the operation's row. -/

namespace Sys2Proof

/-- R84: the word index `16 + i` of WBUF[i] exists. -/
def wbufMapped (p : Params) (i : BitVec 4) : Bool := decide (i.toNat < p.wmax)

/-- R84: the word index `32 + i` of RBUF[i] exists. -/
def rbufMapped (p : Params) (i : BitVec 4) : Bool := decide (i.toNat < p.rmax)

/-- R84, R118: the unmapped indices: 12..15, 48..63, and the unused buffer indices `16+WMAX..31`, `32+RMAX..47`. -/
def unmappedIdx (p : Params) (idx : Idx) : Bool :=
  let n := idx.toNat
  (decide (12 ≤ n) && decide (n ≤ 15)) || decide (48 ≤ n)
    || (decide (16 + p.wmax ≤ n) && decide (n ≤ 31)) || (decide (32 + p.rmax ≤ n) && decide (n ≤ 47))

/-- R330: the indices of the read-only registers: 1, 6..11 and RBUF. -/
def readOnlyIdx (p : Params) (idx : Idx) : Bool :=
  let n := idx.toNat
  decide (n = 1) || (decide (6 ≤ n) && decide (n ≤ 11)) || (decide (32 ≤ n) && decide (n < 32 + p.rmax))

/-- An operation is well formed when its word index belongs to its row. The operations with no such operand always
are. -/
def WellFormed (p : Params) : Instr → Bool
  | .rdWbuf i => wbufMapped p i
  | .rdRbuf i => rbufMapped p i
  | .rdUnmapped idx => unmappedIdx p idx
  | .wrWbuf i _ => wbufMapped p i
  | .wrRo idx => readOnlyIdx p idx
  | .wrUnmapped idx => unmappedIdx p idx
  | .evHost | .evTick | .evPoll | .evDispatch | .evReset
  | .cmdNop | .cmdEngBegin | .cmdSeqInit | .cmdSeqRequestRead | .cmdReserved _
  | .rdCmd | .rdStatus | .rdTxnAddr | .rdTxnWcnt | .rdTxnRcnt | .rdTxnFlags | .rdEPos | .rdEScratch
  | .rdSHum | .rdSTemp | .rdSTs | .rdParams
  | .wrTxnAddr _ | .wrTxnWcnt _ | .wrTxnRcnt _ | .wrTxnFlags _
  | .uStartRs | .uStart | .uTxBitH0 | .uTxBitH1 | .uTxAckH0 | .uTxAckPoll | .uTxAckH1
  | .uRxBitH0 | .uRxBitPoll | .uRxBitH1 | .uRxMackH0 | .uRxMackH1 | .uStopH0 | .uStopH1
  | .sFail | .sResetOk | .sCalOk | .sPollcalOk | .sTrigOk | .sPollmeasOk | .sReadOk => true

end Sys2Proof
end

