-- ==== Sys2Proof/Decode.lean ====
section
/-! DEFINITION. The encodings of spec/30_encoding.md, decoded and encoded. Each of the four formats (R110) has its
own width, so an operation word carries its format: HOSTOP words come from the host, EV codes from the choice of
agent, UOP and SEQOP selectors are read from the state. Decoding is total: a word that matches no row answers
`none`. -/

namespace Sys2Proof

/-- R110: a word of one of the four formats. -/
inductive OpWord where
  | ev (w : BitVec 3)
  | hostop (w : BitVec 39)
  | uop (w : BitVec 10)
  | seqop (w : BitVec 5)
deriving DecidableEq, Repr

/-! ### Decoding -/

/-- R111, R122: the EV codes. Codes 5..7 name no event (R128). -/
def decodeEv (w : BitVec 3) : Option Instr :=
  match w.toNat with
  | 0 => some .evHost
  | 1 => some .evTick
  | 2 => some .evPoll
  | 3 => some .evDispatch
  | 4 => some .evReset
  | _ => none

/-- R112: the field `we`, bit 38: `true` is a write. -/
def hostWe (w : BitVec 39) : Bool := w.getLsbD 38

/-- R112: the field `idx`, bits 37..32. -/
def hostIdx (w : BitVec 39) : Idx := w.extractLsb' 32 6

/-- R112: the field `data`, bits 31..0. -/
def hostData (w : BitVec 39) : Word := w.extractLsb' 0 32

/-- R116: the buffer index of a WBUF or RBUF word index (`idx - 16`, `idx - 32`): its low four bits. -/
def bufIndex (idx : Idx) : BitVec 4 := idx.extractLsb' 0 4

/-- R84: `idx` is in 16..31 and its WBUF byte exists. -/
def isWbufIdx (p : Params) (idx : Idx) : Bool :=
  idx.extractLsb' 4 2 == 1#2 && wbufMapped p (bufIndex idx)

/-- R84: `idx` is in 32..47 and its RBUF byte exists. -/
def isRbufIdx (p : Params) (idx : Idx) : Bool :=
  idx.extractLsb' 4 2 == 2#2 && rbufMapped p (bufIndex idx)

/-- R118: the read rows, by word index. -/
def decodeRead (p : Params) (idx : Idx) : Instr :=
  match idx.toNat with
  | 0 => .rdCmd
  | 1 => .rdStatus
  | 2 => .rdTxnAddr
  | 3 => .rdTxnWcnt
  | 4 => .rdTxnRcnt
  | 5 => .rdTxnFlags
  | 6 => .rdEPos
  | 7 => .rdEScratch
  | 8 => .rdSHum
  | 9 => .rdSTemp
  | 10 => .rdSTs
  | 11 => .rdParams
  | _ =>
    if isWbufIdx p idx then .rdWbuf (bufIndex idx)
    else if isRbufIdx p idx then .rdRbuf (bufIndex idx)
    else .rdUnmapped idx

/-- R118, R291: the command rows, by `data[2:0]`; `data[31:3]` is ignored. -/
def decodeCmd (data : Word) : Instr :=
  match (data.extractLsb' 0 3).toNat with
  | 0 => .cmdNop
  | 1 => .cmdEngBegin
  | 2 => .cmdSeqInit
  | 3 => .cmdSeqRequestRead
  | _ => .cmdReserved (data.extractLsb' 0 2)

/-- R118: the write rows, by word index. -/
def decodeWrite (p : Params) (idx : Idx) (data : Word) : Instr :=
  match idx.toNat with
  | 0 => decodeCmd data
  | 2 => .wrTxnAddr data
  | 3 => .wrTxnWcnt data
  | 4 => .wrTxnRcnt data
  | 5 => .wrTxnFlags data
  | _ =>
    if isWbufIdx p idx then .wrWbuf (bufIndex idx) data
    else if readOnlyIdx p idx then .wrRo idx
    else .wrUnmapped idx

/-- R118: every HOSTOP word is one operation: `we` first, then `idx`, then `data[2:0]` of a write to CMD. In a read
`data` is ignored (R124). -/
def decodeHostOp (p : Params) (w : BitVec 39) : Instr :=
  if hostWe w then decodeWrite p (hostIdx w) (hostData w) else decodeRead p (hostIdx w)

/-- R120: the UOP rows by match and mask. A selector that matches no row is R125's. -/
def decodeUop (w : BitVec 10) : Option Instr :=
  if w &&& 0x3E0#10 = 0x060#10 then some .uStartRs
  else if w &&& 0x3E0#10 = 0x040#10 then some .uStart
  else if w &&& 0x391#10 = 0x080#10 then some .uTxBitH0
  else if w &&& 0x391#10 = 0x081#10 then some .uTxBitH1
  else if w &&& 0x39F#10 = 0x090#10 then some .uTxAckH0
  else if w &&& 0x39F#10 = 0x290#10 then some .uTxAckPoll
  else if w &&& 0x39F#10 = 0x091#10 then some .uTxAckH1
  else if w &&& 0x3D1#10 = 0x100#10 then some .uRxBitH0
  else if w &&& 0x3D1#10 = 0x300#10 then some .uRxBitPoll
  else if w &&& 0x3D1#10 = 0x101#10 then some .uRxBitH1
  else if w &&& 0x3DF#10 = 0x110#10 then some .uRxMackH0
  else if w &&& 0x3DF#10 = 0x111#10 then some .uRxMackH1
  else if w &&& 0x3C1#10 = 0x140#10 then some .uStopH0
  else if w &&& 0x3C1#10 = 0x141#10 then some .uStopH1
  else none

/-- R121: the `s_state` field of a selector (bits 4..1) is an active state (codes 1..6). -/
def seqSelActive (w : BitVec 5) : Bool :=
  let st := (w.extractLsb' 1 4).toNat
  decide (1 ≤ st) && decide (st ≤ 6)

/-- R121: the SEQOP rows by match and mask. S.FAIL's mask tests only `ok`; a selector whose state is not active
matches no operation (R127). -/
def decodeSeqOp (w : BitVec 5) : Option Instr :=
  if w &&& 0x01#5 = 0x00#5 then (if seqSelActive w then some .sFail else none)
  else if w &&& 0x1F#5 = 0x03#5 then some .sResetOk
  else if w &&& 0x1F#5 = 0x05#5 then some .sCalOk
  else if w &&& 0x1F#5 = 0x07#5 then some .sPollcalOk
  else if w &&& 0x1F#5 = 0x09#5 then some .sTrigOk
  else if w &&& 0x1F#5 = 0x0B#5 then some .sPollmeasOk
  else if w &&& 0x1F#5 = 0x0D#5 then some .sReadOk
  else none

/-- The decoder: total on the words of every format. -/
def decode (p : Params) : OpWord → Option Instr
  | .ev w => decodeEv w
  | .hostop w => some (decodeHostOp p w)
  | .uop w => decodeUop w
  | .seqop w => decodeSeqOp w

/-! ### Words numbered as spec/opcode_table.json numbers them -/

/-- The operation word that `w` is, taken as `nbits` bits of the table. HOSTOP words have 39 bits (five bytes), UOP
selectors 10 (two bytes). EV codes (3 bits) and SEQOP selectors (5 bits) both fill one byte: there 0..4 are read as
the EV codes and the other values below 32 as selectors (notes/assumptions/8.md). -/
def tableWord (nbits w : Nat) : Option OpWord :=
  match nbits with
  | 3 => if w < 8 then some (.ev (BitVec.ofNat 3 w)) else none
  | 5 => if w < 32 then some (.seqop (BitVec.ofNat 5 w)) else none
  | 8 =>
    if w < 5 then some (.ev (BitVec.ofNat 3 w))
    else if w < 32 then some (.seqop (BitVec.ofNat 5 w)) else none
  | 10 | 16 => if w < 1024 then some (.uop (BitVec.ofNat 10 w)) else none
  | 39 | 40 => if w < 549755813888 then some (.hostop (BitVec.ofNat 39 w)) else none
  | _ => none

/-- The operation the decoder reads from the table's word, under the reference parameters. -/
def decodeTableWord (nbits w : Nat) : Option Instr :=
  match tableWord nbits w with
  | some ow => decode Params.reference ow
  | none => none

/-! ### Encoding -/

/-- R112: `we << 38 | idx << 32 | data`. -/
def hostWord (we : Bool) (idx : Idx) (data : Word) : BitVec 39 :=
  BitVec.ofBool we ++ idx ++ data

/-- R140: the word of a read of `idx`; a read's data is 0 (R112). -/
def readWord (idx : Idx) : OpWord := .hostop (hostWord false idx 0#32)

/-- R140: the word of a write of `data` to `idx`. -/
def writeWord (idx : Idx) (data : Word) : OpWord := .hostop (hostWord true idx data)

/-- The word of an operation, from the tables R111, R118, R120 and R121, with 0 in every bit the row does not look
at; for S.FAIL the state field holds RESET, the lowest active state (a selector with an inactive state is
unreachable, R127). -/
def encode : Instr → OpWord
  | .evHost => .ev 0#3
  | .evTick => .ev 1#3
  | .evPoll => .ev 2#3
  | .evDispatch => .ev 3#3
  | .evReset => .ev 4#3
  | .cmdNop => writeWord 0#6 0#32
  | .cmdEngBegin => writeWord 0#6 1#32
  | .cmdSeqInit => writeWord 0#6 2#32
  | .cmdSeqRequestRead => writeWord 0#6 3#32
  | .cmdReserved op => writeWord 0#6 (0#29 ++ 1#1 ++ op)
  | .rdCmd => readWord 0#6
  | .rdStatus => readWord 1#6
  | .rdTxnAddr => readWord 2#6
  | .rdTxnWcnt => readWord 3#6
  | .rdTxnRcnt => readWord 4#6
  | .rdTxnFlags => readWord 5#6
  | .rdEPos => readWord 6#6
  | .rdEScratch => readWord 7#6
  | .rdSHum => readWord 8#6
  | .rdSTemp => readWord 9#6
  | .rdSTs => readWord 10#6
  | .rdParams => readWord 11#6
  | .rdWbuf i => readWord (1#2 ++ i)
  | .rdRbuf i => readWord (2#2 ++ i)
  | .rdUnmapped idx => readWord idx
  | .wrTxnAddr data => writeWord 2#6 data
  | .wrTxnWcnt data => writeWord 3#6 data
  | .wrTxnRcnt data => writeWord 4#6 data
  | .wrTxnFlags data => writeWord 5#6 data
  | .wrWbuf i data => writeWord (1#2 ++ i) data
  | .wrRo idx => writeWord idx 0#32
  | .wrUnmapped idx => writeWord idx 0#32
  | .uStartRs => .uop 0x060#10
  | .uStart => .uop 0x040#10
  | .uTxBitH0 => .uop 0x080#10
  | .uTxBitH1 => .uop 0x081#10
  | .uTxAckH0 => .uop 0x090#10
  | .uTxAckPoll => .uop 0x290#10
  | .uTxAckH1 => .uop 0x091#10
  | .uRxBitH0 => .uop 0x100#10
  | .uRxBitPoll => .uop 0x300#10
  | .uRxBitH1 => .uop 0x101#10
  | .uRxMackH0 => .uop 0x110#10
  | .uRxMackH1 => .uop 0x111#10
  | .uStopH0 => .uop 0x140#10
  | .uStopH1 => .uop 0x141#10
  | .sFail => .seqop 0x02#5
  | .sResetOk => .seqop 0x03#5
  | .sCalOk => .seqop 0x05#5
  | .sPollcalOk => .seqop 0x07#5
  | .sTrigOk => .seqop 0x09#5
  | .sPollmeasOk => .seqop 0x0B#5
  | .sReadOk => .seqop 0x0D#5

end Sys2Proof
end

