-- ==== Sys2Proof/Machine/State.lean ====
section
/-! DEFINITION. The state of the block (spec/10_state.md), as plain data, and the state after reset (R60). The groups
are R30's: engine state, transaction latches, host transaction registers, buffers, sequencer state, line outputs,
`viol`. Beside them stand the observable outcomes of R17 (the bus event history and the results of the host's
reads), the parameters of R9, and the supplied inputs. -/

namespace Sys2Proof.Machine

/-- R37: the engine's phase. -/
inductive Phase where
  | idle | start | addr | write | read | stop | done | failed
deriving DecidableEq, Repr

/-- R39, R16: who issued the transaction in flight. -/
inductive Owner where
  | host | seq
deriving DecidableEq, Repr

/-- R46: the sequencer's state. Codes 9..15 have no name and cannot be held. -/
inductive SeqState where
  | off | reset | calibrate | pollCal | trigger | pollMeas | read | idle | error
deriving DecidableEq, Repr

/-- R234: the states that issue a transaction on entry. -/
inductive Issuing where
  | reset | calibrate | pollCal | trigger | pollMeas | read
deriving DecidableEq, Repr

/-- R47: the last error kind. `busNack` and `busFault` have codes and are never written (R341). -/
inductive ErrKind where
  | none | busNack | busFault | deviceNotPresent | calibrationFailed
deriving DecidableEq, Repr

/-- R343: the causes of Viol. A cause is named, not stored (R342). -/
inductive ViolCause where
  | beginBusy | beginSeqActive | beginCount | initBusy | reqBusy | cmdReserved
deriving DecidableEq, Repr

/-- R12, R153, R370: one event of the bus history. A level `true` is 1. -/
inductive LineEvent where
  /-- `SDA:=l` -/
  | setSda (l : Bool)
  /-- `SCL:=l` -/
  | setScl (l : Bool)
  /-- `SCL?=v` -/
  | readScl (v : Bool)
  /-- `SDA?=v` -/
  | readSda (v : Bool)
  /-- `RST` -/
  | rst
deriving DecidableEq, Repr

/-- R31 to R39: the engine's own fields. `e_busy` is not stored (R38). -/
structure Engine where
  phase : Phase
  scratch : Byte
  byte : Byte
  bit : BitVec 4
  half : Bool
  dir : Bool
  rs : Bool
  nack : Bool
  fail : Bool
  next : Bool
  wait : Bool
  armed : Bool
  owner : Owner
deriving DecidableEq, Repr

/-- R150: a transaction; R40: the latches `e_addr`, `e_wcnt`, `e_rcnt`, `e_rsflag`, `e_wdata[0..WMAX-1]` hold one. -/
structure Txn where
  addr : BusAddr
  wcnt : Byte
  rcnt : Byte
  rs : Bool
  wdata : List Byte
deriving DecidableEq, Repr

/-- R41: the line outputs `scl_o` and `sda_o`; `true` = released. -/
structure Lines where
  scl : Bool
  sda : Bool
deriving DecidableEq, Repr

/-- R42: the host-side transaction descriptor. -/
structure Descriptor where
  addr : BusAddr
  wcnt : Byte
  rcnt : Byte
  rs : Bool
deriving DecidableEq, Repr

/-- R46 to R50: the sequencer's fields. -/
structure Seq where
  state : SeqState
  err : ErrKind
  isNew : Bool
  valid : Bool
  cplPend : Bool
  cplOk : Bool
  hum : Word
  temp : Word
  ts : Word
deriving DecidableEq, Repr

/-- A byte buffer (`wbuf`, `rbuf`): cells by rising index, none holding 0, which is what an unlisted byte reads as
(R60: every buffer byte is 0 after reset). -/
abbrev Memory := List Host.Cell

/-- The state of the block. -/
structure State where
  /-- R9: the parameters of this instance; no operation writes them. -/
  cfg : Params
  eng : Engine
  /-- R40: the transaction latches. -/
  latch : Txn
  lines : Lines
  txn : Descriptor
  /-- R43: the write buffer. -/
  wbuf : Memory
  /-- R44: the read buffer. -/
  rbuf : Memory
  /-- R45: the sticky contract-violation bit. -/
  viol : Bool
  seq : Seq
  /-- The inputs supplied for the coming steps, one record a step; past its end the inputs are free. -/
  inputs : List Pins
  /-- The number of steps taken: the argument of the free values. -/
  draws : Nat
  /-- R17: the bus event history, oldest first. -/
  bus : List LineEvent
  /-- R17: the results of the host's reads, oldest first. -/
  results : List Word
deriving DecidableEq, Repr

/-- Why the machine stops with a fault. All are safe: the spec says that no reachable state shows them, and that a
model faults. -/
inductive Fault where
  /-- Raised by EV.TICK, EV.POLL and the micro-operations: the engine state selects no row of the UOP table, or not
  the operation's own, or an index lies outside its buffer (R125, R341, D38: BUS_FAULT). Safe. -/
  | busFault
  /-- Raised by EV.DISPATCH and the SEQOP operations: the sequencer's selector matches no operation, a completion
  in OFF, IDLE or ERROR (R127, R233, D42). Safe. -/
  | strayCompletion
  /-- Raised by the SEQOP operations that issue a transaction: the engine is busy, against the precondition of R235.
  Safe. -/
  | issueWhileBusy
  /-- Raised by `step`: `s_err` holds a code that no rule writes (spec/93_implementation_defined.md B4). Safe. -/
  | reservedCodeHeld
deriving DecidableEq, Repr

/-- Why a step is refused. -/
inductive Refusal where
  /-- Raised by an arm of `exec` whose operation has no meaning yet. Safe. -/
  | notModelled (mnemonic : String)
  /-- Raised by EV.TICK, EV.POLL and EV.DISPATCH when the event is not enabled: it has no step then (R160, R161,
  R240, D41). Safe. -/
  | eventNotEnabled (mnemonic : String)
  /-- Raised by `step` on the EV codes 5..7, which name no event and never occur (R128). Safe. -/
  | noSuchEvent
deriving DecidableEq, Repr

/-- What an operation answers. -/
abbrev Result := Host.Outcome State Fault Refusal

/-- R60: the engine after reset. -/
def Engine.reset : Engine where
  phase := .idle
  scratch := 0#8
  byte := 0#8
  bit := 0#4
  half := false
  dir := false
  rs := false
  nack := false
  fail := false
  next := false
  wait := false
  armed := false
  owner := .host

/-- R60: the transaction latches after reset: `wmax` bytes of `e_wdata`, all 0. -/
def Txn.reset (wmax : Nat) : Txn where
  addr := 0#7
  wcnt := 0#8
  rcnt := 0#8
  rs := false
  wdata := List.replicate wmax 0#8

/-- R60: the host descriptor after reset. -/
def Descriptor.reset : Descriptor where
  addr := 0#7
  wcnt := 0#8
  rcnt := 0#8
  rs := false

/-- R60: the sequencer after reset. -/
def Seq.reset : Seq where
  state := .off
  err := .none
  isNew := false
  valid := false
  cplPend := false
  cplOk := false
  hum := 0#32
  temp := 0#32
  ts := 0#32

/-- R60: the block of parameters `p` after reset, nothing supplied and nothing observed. -/
def State.resetWith (p : Params) : State where
  cfg := p
  eng := Engine.reset
  latch := Txn.reset p.wmax
  lines := { scl := true, sda := true }
  txn := Descriptor.reset
  wbuf := []
  rbuf := []
  viol := false
  seq := Seq.reset
  inputs := []
  draws := 0
  bus := []
  results := []

/-- R60: the machine right after reset, with the reference parameters of R9. -/
def State.reset : State := State.resetWith Params.reference

end Sys2Proof.Machine
end

