-- ==== Sys2Proof/Machine/Flags.lean ====
section
/-! DEFINITION. The flags that are computed from state: `e_busy` (R38), the sequencer's active states (R16, R230),
the two bits of the sensor's status byte (R250). -/

namespace Sys2Proof.Machine

/-- R37, R38: the busy phases are START, ADDR, WRITE, READ and STOP. -/
def Phase.busy : Phase → Bool
  | .start | .addr | .write | .read | .stop => true
  | .idle | .done | .failed => false

/-- R38: `e_busy`. -/
def Engine.busy (e : Engine) : Bool := e.phase.busy

/-- R230: the active states are RESET, CALIBRATE, POLL_CAL, TRIGGER, POLL_MEAS and READ. -/
def SeqState.active : SeqState → Bool
  | .reset | .calibrate | .pollCal | .trigger | .pollMeas | .read => true
  | .off | .idle | .error => false

/-- R250: the busy bit of a status byte, at the parameter `BUSY_BIT`. -/
def statusBusy (p : Params) (st : Byte) : Bool := st.getLsbD p.busyBit.val

/-- R250: the cal bit of a status byte: `CAL_BIT` is fixed at 3 (R9). -/
def statusCal (st : Byte) : Bool := st.getLsbD 3

end Sys2Proof.Machine
end

