-- ==== Sys2Proof/Machine/Operands.lean ====
section
/-! DEFINITION. What the operations take and give: the codes of the named fields (R37, R39, R46, R47), the selectors
read from state (R113, R114), the slices of the HOSTOP data field (R115), the bytes put on the bus (R117), the
register words a host read returns (R311 to R321), the command store (R234), the raw values and the conversion
(R256 to R258). -/

namespace Sys2Proof.Machine

/-! ### Codes -/

/-- R37: the code of a phase. -/
def Phase.code : Phase → BitVec 3
  | .idle => 0#3
  | .start => 1#3
  | .addr => 2#3
  | .write => 3#3
  | .read => 4#3
  | .stop => 5#3
  | .done => 6#3
  | .failed => 7#3

/-- R37: the phase of a code; every code has one. -/
def Phase.ofCode (c : BitVec 3) : Phase :=
  match c.toNat with
  | 0 => .idle
  | 1 => .start
  | 2 => .addr
  | 3 => .write
  | 4 => .read
  | 5 => .stop
  | 6 => .done
  | _ => .failed

/-- R39: HOST = 0, SEQ = 1. -/
def Owner.code : Owner → Bool
  | .host => false
  | .seq => true

/-- R46: the code of a sequencer state. -/
def SeqState.code : SeqState → BitVec 4
  | .off => 0#4
  | .reset => 1#4
  | .calibrate => 2#4
  | .pollCal => 3#4
  | .trigger => 4#4
  | .pollMeas => 5#4
  | .read => 6#4
  | .idle => 7#4
  | .error => 8#4

/-- R46: the sequencer state of a code; codes 9..15 have none. -/
def SeqState.ofCode (c : BitVec 4) : Option SeqState :=
  match c.toNat with
  | 0 => some .off
  | 1 => some .reset
  | 2 => some .calibrate
  | 3 => some .pollCal
  | 4 => some .trigger
  | 5 => some .pollMeas
  | 6 => some .read
  | 7 => some .idle
  | 8 => some .error
  | _ => none

/-- R47: the code of an error kind. -/
def ErrKind.code : ErrKind → BitVec 3
  | .none => 0#3
  | .busNack => 1#3
  | .busFault => 2#3
  | .deviceNotPresent => 3#3
  | .calibrationFailed => 4#3

/-! ### Selectors -/

/-- R113: `w << 9 | e_phase << 6 | e_rs << 5 | e_bit << 1 | e_half`, for a given `w`. -/
def Engine.selector (e : Engine) (w : Bool) : BitVec 10 :=
  BitVec.ofBool w ++ e.phase.code ++ BitVec.ofBool e.rs ++ e.bit ++ BitVec.ofBool e.half

/-- R160: the selector a TICK reads: `w = 0`. -/
def State.tickSel (s : State) : BitVec 10 := s.eng.selector false

/-- R113, R161: the selector with `w = e_wait`, which a POLL reads with `w = 1`. -/
def State.uop (s : State) : BitVec 10 := s.eng.selector s.eng.wait

/-- R114: `s_state << 1 | s_cpl_ok`. -/
def State.seqop (s : State) : BitVec 5 := s.seq.state.code ++ BitVec.ofBool s.seq.cplOk

/-! ### Operand slices and bus bytes -/

/-- R115: TXN_ADDR takes `data[6:0]`. -/
def dataAddr (data : Word) : BusAddr := data.extractLsb' 0 7

/-- R115: TXN_WCNT, TXN_RCNT and WBUF[i] take `data[7:0]`. -/
def dataByte (data : Word) : Byte := data.extractLsb' 0 8

/-- R115: TXN_FLAGS takes `data[0]`. -/
def dataFlag (data : Word) : Bool := data.getLsbD 0

/-- R82, R117: the address byte `{e_addr[6:0], e_dir}`. -/
def addressByte (addr : BusAddr) (dir : Bool) : Byte := addr ++ BitVec.ofBool dir

/-- R32: bit `7 - k` of a byte, the bit that slot `k` (0..7) puts on SDA: most significant first. -/
def msbFirst (b : Byte) (k : BitVec 4) : Bool := b.getLsbD (7 - k.toNat)

/-- R32, R170: `(b << 1 | v)[7:0]`. -/
def shiftIn (b : Byte) (v : Bool) : Byte := b <<< 1 ||| (BitVec.ofBool v).setWidth 8

/-! ### Register words -/

/-- `v << k` in a 32-bit word. -/
def field {n : Nat} (v : BitVec n) (k : Nat) : Word := v.setWidth 32 <<< k

/-- One bit at position `k` of a 32-bit word. -/
def flag (v : Bool) (k : Nat) : Word := field (BitVec.ofBool v) k

/-- R52, R311: STATUS. -/
def State.statusWord (s : State) : Word :=
  field s.eng.phase.code 0 ||| flag s.eng.busy 3 ||| flag s.eng.owner.code 4 ||| flag s.eng.armed 5
    ||| flag s.eng.wait 6 ||| field s.seq.state.code 8 ||| field s.seq.err.code 12 ||| flag s.seq.isNew 15
    ||| flag s.seq.valid 16 ||| flag s.seq.cplPend 17 ||| flag s.seq.cplOk 18 ||| flag s.viol 19
    ||| flag s.lines.scl 20 ||| flag s.lines.sda 21

/-- R53, R316: E_POS. -/
def State.ePosWord (s : State) : Word :=
  field s.eng.byte 0 ||| field s.eng.bit 8 ||| flag s.eng.half 12 ||| flag s.eng.rs 13 ||| flag s.eng.dir 14
    ||| flag s.eng.nack 15 ||| flag s.eng.fail 16 ||| flag s.eng.next 17

/-- R56, R321: PARAMS. -/
def paramsWord (p : Params) : Word :=
  field (BitVec.ofNat 8 p.wmax) 0 ||| field (BitVec.ofNat 8 p.rmax) 8 ||| field p.sensorAddr 16

/-! ### The command store -/

/-- R234, R46: the sequencer state in which the command is in flight. -/
def Issuing.toState : Issuing → SeqState
  | .reset => .reset
  | .calibrate => .calibrate
  | .pollCal => .pollCal
  | .trigger => .trigger
  | .pollMeas => .pollMeas
  | .read => .read

/-- R234: the write bytes of a state's transaction. -/
def storeBytes (p : Params) : Issuing → List Byte
  | .reset => [0xBA#8]
  | .calibrate => [0xE1#8, 0x08#8, 0x00#8]
  | .trigger => p.trigger
  | .pollCal | .pollMeas | .read => []

/-- R234: the read count of a state's transaction. -/
def storeReads (p : Params) : Issuing → Nat
  | .pollCal | .pollMeas => 1
  | .read => p.readLen
  | .reset | .calibrate | .trigger => 0

/-- R234, R235: the command-store transaction of state `k`, all to `SENSOR_ADDR` with repeated-start 0. R150 copies
WMAX bytes; the ones past the command's own are stated nowhere and are free values (notes/assumptions/4.md); `n` is
the step number. -/
def storeTxn (p : Params) (n : Nat) (k : Issuing) : Txn where
  addr := p.sensorAddr
  wcnt := BitVec.ofNat 8 (storeBytes p k).length
  rcnt := BitVec.ofNat 8 (storeReads p k)
  rs := false
  wdata := storeBytes p k
    ++ (List.range (p.wmax - (storeBytes p k).length)).map
        (fun j => Config.unstatedByte n ((storeBytes p k).length + j))

/-! ### Raw values and conversion -/

/-- R256: the reference cut: `rh = b1 << 12 | b2 << 4 | b3 >> 4`, `rt = (b3 & 0x0F) << 16 | b4 << 8 | b5`. -/
def referenceLayout (b : Nat → Byte) : Raw × Raw :=
  ((b 1).setWidth 20 <<< 12 ||| (b 2).setWidth 20 <<< 4 ||| (b 3).setWidth 20 >>> 4,
   (b 3 &&& 0x0F#8).setWidth 20 <<< 16 ||| (b 4).setWidth 20 <<< 8 ||| (b 5).setWidth 20)

/-- R247, R256: `RAW_LAYOUT(rbuf[0 .. READ_LEN-1])`, where `b i` is `rbuf[i]`. -/
def rawValues (p : Params) (b : Nat → Byte) : Raw × Raw :=
  match p.rawLayout with
  | .reference => referenceLayout b
  | .other k => Config.rawLayout k ((List.range p.readLen).map b)

/-- R257: `(rh * 625) >> 16`, exact, zero-extended to 32 bits. -/
def humWord (rh : Raw) : Word := BitVec.ofNat 32 ((rh.toNat * 625) >>> 16)

/-- R258: `((rt * 625) >> 15) - 5000`, the subtraction in signed arithmetic, as 32-bit two's complement. -/
def tempWord (rt : Raw) : Word := BitVec.ofInt 32 (((rt.toNat * 625) >>> 15 : Nat) - (5000 : Int))

end Sys2Proof.Machine
end

