-- ==== Sys2Proof/Machine/Ops.lean ====
section
/-! DEFINITION. The named operations over memory, inputs, lines and state that the meanings share: buffer bytes, the
inputs of a step, the line driver (R152, R153, R90), Arm (R13), Viol (R342), the completion (R159), BEGIN (R150,
R151), Issue (R235), the sequencer's fault entry (R345), the host's read result (R290). The block has no trap and no
return (R340, R348): its abnormal events are `raiseViol`, `seqFault` and the engine's NACK path in U.TX.ACK.H1. -/

namespace Sys2Proof.Machine

/-! ### Buffer memory -/

/-- The byte at index `a`; an unlisted byte reads 0, its reset content (R60). -/
def Memory.read : Memory → Nat → Byte
  | [], _ => 0#8
  | (k, b) :: t, a => if k = a then b else Memory.read t a

/-- `m` with the cell `(a, b)` in its place among the rising indices, in place of a cell at `a`. -/
def Memory.place : Memory → Nat → Byte → Memory
  | [], a, b => [(a, b)]
  | (k, c) :: t, a, b =>
    if a < k then (a, b) :: (k, c) :: t
    else if a = k then (a, b) :: t
    else (k, c) :: Memory.place t a b

/-- `m` without a cell at `a`. -/
def Memory.drop (m : Memory) (a : Nat) : Memory := m.filter (fun c => c.1 != a)

/-- Store `b` at index `a`. Storing 0, what an unlisted byte reads as, takes the cell away. -/
def Memory.write (m : Memory) (a : Nat) (b : Byte) : Memory :=
  if b = 0#8 then m.drop a else m.place a b

/-- The canonical form: strictly rising indices, and no cell holding 0. -/
abbrev Memory.wf (m : Memory) : Prop :=
  m.Pairwise (fun x y => x.1 < y.1) ∧ ∀ c ∈ m, c.2 ≠ 0#8

/-! ### The inputs of a step -/

/-- What the outside world presents for this step: the first supplied record, or a free value (R8, R90, D47). -/
def State.pins (s : State) : Pins :=
  match s.inputs with
  | p :: _ => p
  | [] => Config.freePins s.draws

/-- The step's inputs are used up. -/
def State.advance (s : State) : State := { s with inputs := s.inputs.tail, draws := s.draws + 1 }

/-! ### The line driver -/

/-- R12: one event is appended to the bus event history. -/
def State.emit (s : State) (e : LineEvent) : State := { s with bus := s.bus ++ [e] }

/-- R152: `SetData(l)`. -/
def State.setData (s : State) (l : Bool) : State :=
  ({ s with lines := { s.lines with sda := l } } : State).emit (.setSda l)

/-- R152: `SetClock(l)`. -/
def State.setClock (s : State) (l : Bool) : State :=
  ({ s with lines := { s.lines with scl := l } } : State).emit (.setScl l)

/-- R90, R153: the level `ReadClock()` returns: the wired-AND of the master's and the peer's output. -/
def State.clockLevel (s : State) : Bool := s.lines.scl && s.pins.scl

/-- R90, R153: the level `ReadData()` returns. -/
def State.dataLevel (s : State) : Bool := s.lines.sda && s.pins.sda

/-! ### Control primitives -/

/-- R13: `Arm()`. -/
def State.arm (s : State) : State := { s with eng := { s.eng with armed := true } }

/-- R342: `raise Viol(cause)`: the sticky bit is set and nothing else is written; the cause is not stored. -/
def State.raiseViol (s : State) (_cause : ViolCause) : State := { s with viol := true }

/-- R290: the HOST receives `v`. -/
def State.hostReturn (s : State) (v : Word) : State := { s with results := s.results ++ [v] }

/-- R159: `Complete(ok)`. -/
def State.complete (s : State) (ok : Bool) : State :=
  { s with
    eng := { s.eng with phase := if ok then .done else .failed }
    seq :=
      match s.eng.owner with
      | .seq => { s.seq with cplPend := true, cplOk := ok }
      | .host => s.seq }

/-- R345: the sequencer's fault entry: the kind is recorded, the state is ERROR, and no transaction is issued. -/
def State.seqFault (s : State) (kind : ErrKind) : State :=
  { s with seq := { s.seq with err := kind, state := .error } }

/-! ### Starting a transaction -/

/-- R163: the work of U.START: the START condition, then the address byte is loaded. -/
def State.startCondition (s : State) : State :=
  let s := (s.setData false).setClock false
  { s with eng := { s.eng with
      scratch := addressByte s.latch.addr s.eng.dir
      phase := .addr
      bit := 0#4
      half := false } }.arm

/-- R150, R151: `EngineBegin(t, owner)`. With both counts 0 nothing happens. -/
def State.engineBegin (s : State) (t : Txn) (owner : Owner) : State :=
  if t.wcnt = 0#8 ∧ t.rcnt = 0#8 then s
  else
    { s with
      latch := t
      eng := {
        phase := .start
        scratch := s.eng.scratch
        byte := 0#8
        bit := 0#4
        half := false
        dir := decide (t.wcnt = 0#8)
        rs := false
        nack := false
        fail := false
        next := false
        wait := false
        armed := false
        owner := owner } }.startCondition

/-- R301: the transaction of the host's descriptor: `wbuf[0..WMAX-1]` are its write bytes. -/
def State.hostTxn (s : State) : Txn where
  addr := s.txn.addr
  wcnt := s.txn.wcnt
  rcnt := s.txn.rcnt
  rs := s.txn.rs
  wdata := (List.range s.cfg.wmax).map s.wbuf.read

/-- R235: `Issue(k)`. -/
def State.issue (s : State) (k : Issuing) : State :=
  s.engineBegin (storeTxn s.cfg s.draws k) .seq

/-- R231: every state entered by an edge issues its transaction on entry. -/
def State.enter (s : State) (k : Issuing) : State :=
  ({ s with seq := { s.seq with state := k.toState } } : State).issue k

end Sys2Proof.Machine
end

