-- ==== Sys2Proof/Machine/HostCommands.lean ====
section
/-! DEFINITION. The commands: writes to CMD (spec/42_host_port.md R291, R300 to R304) and the two sequencer operations
they start (spec/41_sequencer.md R236, R237). A refused command raises Viol: a next state in which only `viol`
changed. -/

namespace Sys2Proof.Machine

/-- R300: CMD.NOP. -/
def execCmdNop (s : State) : Result := .next s

/-- R301: CMD.ENG_BEGIN: the three acceptance tests in the order listed, then BEGIN for the host. -/
def execCmdEngBegin (s : State) : Result :=
  .next (
    if s.eng.busy then s.raiseViol .beginBusy
    else if s.seq.state.active then s.raiseViol .beginSeqActive
    else if s.cfg.wmax < s.txn.wcnt.toNat ∨ s.cfg.rmax < s.txn.rcnt.toNat then s.raiseViol .beginCount
    else s.engineBegin s.hostTxn .host)

/-- R236: SeqInit. -/
def State.seqInit (s : State) : State :=
  ({ s with seq := { s.seq with err := .none, isNew := false } } : State).enter .reset

/-- R302: CMD.SEQ_INIT. -/
def execCmdSeqInit (s : State) : Result :=
  .next (
    if s.eng.busy || s.seq.cplPend || s.seq.state.active then s.raiseViol .initBusy
    else s.seqInit)

/-- R237: SeqRequestRead in IDLE with the engine not busy. -/
def State.seqRequestRead (s : State) : State :=
  ({ s with seq := { s.seq with isNew := false } } : State).enter .trigger

/-- R303: CMD.SEQ_REQUEST_READ: no effect unless IDLE. -/
def execCmdSeqRequestRead (s : State) : Result :=
  .next (
    if s.seq.state ≠ .idle then s
    else if s.eng.busy then s.raiseViol .reqBusy
    else s.seqRequestRead)

/-- R304: CMD.RESERVED, any of the codes 4..7. -/
def execCmdReserved (_op : BitVec 2) (s : State) : Result := .next (s.raiseViol .cmdReserved)

end Sys2Proof.Machine
end

