-- ==== Sys2Proof/Machine/HostReads.lean ====
section
/-! DEFINITION. The reads of the host port (spec/42_host_port.md R310 to R324). A read returns a 32-bit word to the
HOST and writes nothing (R86). -/

namespace Sys2Proof.Machine

/-- R310: RD.CMD: CMD stores nothing and reads 0. -/
def execRdCmd (s : State) : Result := .next (s.hostReturn 0#32)

/-- R311: RD.STATUS. -/
def execRdStatus (s : State) : Result := .next (s.hostReturn s.statusWord)

/-- R312: RD.TXN_ADDR: the host descriptor, not the latch. -/
def execRdTxnAddr (s : State) : Result := .next (s.hostReturn (s.txn.addr.setWidth 32))

/-- R313: RD.TXN_WCNT. -/
def execRdTxnWcnt (s : State) : Result := .next (s.hostReturn (s.txn.wcnt.setWidth 32))

/-- R314: RD.TXN_RCNT. -/
def execRdTxnRcnt (s : State) : Result := .next (s.hostReturn (s.txn.rcnt.setWidth 32))

/-- R315: RD.TXN_FLAGS. -/
def execRdTxnFlags (s : State) : Result := .next (s.hostReturn (flag s.txn.rs 0))

/-- R316: RD.E_POS. -/
def execRdEPos (s : State) : Result := .next (s.hostReturn s.ePosWord)

/-- R317: RD.E_SCRATCH. -/
def execRdEScratch (s : State) : Result := .next (s.hostReturn (s.eng.scratch.setWidth 32))

/-- R318: RD.S_HUM. -/
def execRdSHum (s : State) : Result := .next (s.hostReturn s.seq.hum)

/-- R319: RD.S_TEMP, the two's complement word. -/
def execRdSTemp (s : State) : Result := .next (s.hostReturn s.seq.temp)

/-- R320: RD.S_TS. -/
def execRdSTs (s : State) : Result := .next (s.hostReturn s.seq.ts)

/-- R321: RD.PARAMS. -/
def execRdParams (s : State) : Result := .next (s.hostReturn (paramsWord s.cfg))

/-- R322: RD.WBUF: an index past WMAX reads 0. -/
def execRdWbuf (i : BitVec 4) (s : State) : Result :=
  .next (s.hostReturn (if i.toNat < s.cfg.wmax then (s.wbuf.read i.toNat).setWidth 32 else 0#32))

/-- R323: RD.RBUF: an index past RMAX reads 0. -/
def execRdRbuf (i : BitVec 4) (s : State) : Result :=
  .next (s.hostReturn (if i.toNat < s.cfg.rmax then (s.rbuf.read i.toNat).setWidth 32 else 0#32))

/-- R324: RD.UNMAPPED. -/
def execRdUnmapped (_idx : Idx) (s : State) : Result := .next (s.hostReturn 0#32)

end Sys2Proof.Machine
end

