-- ==== Sys2Proof/Machine/HostWrites.lean ====
section
/-! DEFINITION. The writes of the host port to storage and the inert writes (spec/42_host_port.md R325 to R331). None
touches a transaction in flight (R99). -/

namespace Sys2Proof.Machine

/-- R325: WR.TXN_ADDR. -/
def execWrTxnAddr (data : Word) (s : State) : Result :=
  .next { s with txn := { s.txn with addr := dataAddr data } }

/-- R326: WR.TXN_WCNT: any value is stored. -/
def execWrTxnWcnt (data : Word) (s : State) : Result :=
  .next { s with txn := { s.txn with wcnt := dataByte data } }

/-- R327: WR.TXN_RCNT: any value is stored. -/
def execWrTxnRcnt (data : Word) (s : State) : Result :=
  .next { s with txn := { s.txn with rcnt := dataByte data } }

/-- R328: WR.TXN_FLAGS. -/
def execWrTxnFlags (data : Word) (s : State) : Result :=
  .next { s with txn := { s.txn with rs := dataFlag data } }

/-- R329: WR.WBUF: an index past WMAX is ignored. -/
def execWrWbuf (i : BitVec 4) (data : Word) (s : State) : Result :=
  .next (if i.toNat < s.cfg.wmax then { s with wbuf := s.wbuf.write i.toNat (dataByte data) } else s)

/-- R330: WR.RO: a write to a read-only register changes nothing and sets no `viol`. -/
def execWrRo (_idx : Idx) (s : State) : Result := .next s

/-- R331: WR.UNMAPPED: a write to an unmapped index changes nothing and sets no `viol`. -/
def execWrUnmapped (_idx : Idx) (s : State) : Result := .next s

end Sys2Proof.Machine
end

