-- ==== Sys2Proof/Machine/MicroOps.lean ====
section
/-! DEFINITION. The fourteen micro-operations of the engine (spec/40_engine.md R162 to R175). Each is performed only
in the micro-states its selector row matches (R120); an engine state that selects another row, or an index outside
its buffer, is an internal invariant violation on which the model faults (R125, R341). -/

namespace Sys2Proof.Machine

/-- A micro-operation `i` whose work is `f`, in a state whose selector is `sel`: `f` answers `none` on an index
outside its buffer. -/
def microOp (sel : BitVec 10) (i : Instr) (f : State → Option State) (s : State) : Result :=
  if decodeUop sel = some i then
    match f s with
    | some t => .next t
    | none => .fault .busFault
  else .fault .busFault

/-! ### START -/

/-- R162: U.START.RS, the repeated-start preparation. -/
def execUStartRs (s : State) : Result :=
  microOp s.tickSel .uStartRs (fun s =>
    let s := (s.setData true).setClock true
    some ({ s with eng := { s.eng with rs := false } } : State).arm) s

/-- R163: U.START. -/
def execUStart (s : State) : Result :=
  microOp s.tickSel .uStart (fun s => some s.startCondition) s

/-! ### Transmitted byte -/

/-- R164: U.TX.BIT.H0: a data bit on SDA, most significant first, then the clock up. -/
def execUTxBitH0 (s : State) : Result :=
  microOp s.tickSel .uTxBitH0 (fun s =>
    let s := (s.setData (msbFirst s.eng.scratch s.eng.bit)).setClock true
    some ({ s with eng := { s.eng with half := true } } : State).arm) s

/-- R165: U.TX.BIT.H1: the clock down, the next bit slot. -/
def execUTxBitH1 (s : State) : Result :=
  microOp s.tickSel .uTxBitH1 (fun s =>
    let s := s.setClock false
    some ({ s with eng := { s.eng with half := false, bit := s.eng.bit + 1#4 } } : State).arm) s

/-- R166: U.TX.ACK.H0: data released, clock up, and the engine holds at poll site 1. -/
def execUTxAckH0 (s : State) : Result :=
  microOp s.tickSel .uTxAckH0 (fun s =>
    let s := (s.setData true).setClock true
    some { s with eng := { s.eng with wait := true } }) s

/-- R167: U.TX.ACK.POLL: while SCL reads low the hold continues; else SDA is sampled (low = ACK). -/
def execUTxAckPoll (s : State) : Result :=
  microOp s.uop .uTxAckPoll (fun s =>
    some (
      if s.clockLevel then
        let s := (s.emit (.readScl true)).emit (.readSda s.dataLevel)
        ({ s with eng := { s.eng with nack := s.dataLevel, wait := false, half := true } } : State).arm
      else s.emit (.readScl false))) s

/-- R168: the engine after the ACK slot of a transmitted byte: a NACK goes to STOP (R344), an ACK to the next byte or
phase of the transaction `t`. Counts are compared exactly (R10); the write of `e_byte` is 8 bits wide. `none` when a
byte to send lies outside `e_wdata`. -/
def Engine.afterAck (e : Engine) (t : Txn) : Option Engine :=
  let e := { e with half := false, bit := 0#4 }
  let n := e.byte.toNat + 1
  if e.nack then some { e with fail := true, next := false, phase := .stop }
  else if e.phase = .addr then
    if e.dir then some { e with phase := .read, byte := 0#8 }
    else t.wdata[0]?.map (fun b => { e with phase := .write, byte := 0#8, scratch := b })
  else if n < t.wcnt.toNat then
    t.wdata[n]?.map (fun b => { e with byte := BitVec.ofNat 8 n, scratch := b })
  else if t.rcnt ≠ 0#8 then
    some (
      if t.rs then { e with byte := BitVec.ofNat 8 n, dir := true, phase := .start, rs := true }
      else { e with byte := BitVec.ofNat 8 n, dir := true, phase := .stop, next := true })
  else some { e with byte := BitVec.ofNat 8 n, phase := .stop, next := false }

/-- R168: U.TX.ACK.H1: the clock down, then the engine acts on ACK or NACK. -/
def execUTxAckH1 (s : State) : Result :=
  microOp s.tickSel .uTxAckH1 (fun s =>
    (s.eng.afterAck s.latch).map (fun e => ({ s.setClock false with eng := e } : State).arm)) s

/-! ### Received byte -/

/-- R169: U.RX.BIT.H0: data released, clock up, and the engine holds at poll site 2. -/
def execURxBitH0 (s : State) : Result :=
  microOp s.tickSel .uRxBitH0 (fun s =>
    let s := (s.setData true).setClock true
    some { s with eng := { s.eng with wait := true } }) s

/-- R170: U.RX.BIT.POLL: while SCL reads low the hold continues; else a data bit enters at bit 0. -/
def execURxBitPoll (s : State) : Result :=
  microOp s.uop .uRxBitPoll (fun s =>
    some (
      if s.clockLevel then
        let s := (s.emit (.readScl true)).emit (.readSda s.dataLevel)
        ({ s with eng := { s.eng with
            scratch := shiftIn s.eng.scratch s.dataLevel, wait := false, half := true } } : State).arm
      else s.emit (.readScl false))) s

/-- R171: the eighth bit was sampled: `rbuf[e_byte] <- e_scratch`; `none` when the index lies outside the buffer. -/
def State.storeReceived (s : State) : Option State :=
  if s.eng.byte.toNat < s.cfg.rmax then
    some { s with rbuf := s.rbuf.write s.eng.byte.toNat s.eng.scratch }
  else none

/-- R171: U.RX.BIT.H1: the clock down, the next bit slot; after the eighth bit the byte is stored. -/
def execURxBitH1 (s : State) : Result :=
  microOp s.tickSel .uRxBitH1 (fun s =>
    let t := ({ s.setClock false with
      eng := { s.eng with half := false, bit := s.eng.bit + 1#4 } } : State).arm
    if s.eng.bit + 1#4 = 8#4 then t.storeReceived else some t) s

/-- R172: the byte being received is the last one: `e_byte + 1 = e_rcnt`, compared exactly (R10). -/
def State.lastByte (s : State) : Bool := decide (s.eng.byte.toNat + 1 = s.latch.rcnt.toNat)

/-- R172: U.RX.MACK.H0: the master drives ACK (low), or NACK (high) after the last byte. -/
def execURxMackH0 (s : State) : Result :=
  microOp s.tickSel .uRxMackH0 (fun s =>
    let s := (s.setData s.lastByte).setClock true
    some ({ s with eng := { s.eng with half := true } } : State).arm) s

/-- R173: U.RX.MACK.H1: the clock down; the next byte, or STOP after the last. -/
def execURxMackH1 (s : State) : Result :=
  microOp s.tickSel .uRxMackH1 (fun s =>
    let e := { s.eng with half := false, bit := 0#4 }
    let e := if s.lastByte then { e with phase := .stop, next := false } else { e with byte := e.byte + 1#8 }
    some ({ s.setClock false with eng := e } : State).arm) s

/-! ### STOP -/

/-- R174: U.STOP.H0: data low, then clock up. -/
def execUStopH0 (s : State) : Result :=
  microOp s.tickSel .uStopH0 (fun s =>
    let s := (s.setData false).setClock true
    some ({ s with eng := { s.eng with half := true } } : State).arm) s

/-- R175: U.STOP.H1: data up, the STOP condition; then the START of the read phase, or completion. -/
def execUStopH1 (s : State) : Result :=
  microOp s.tickSel .uStopH1 (fun s =>
    let t := ({ s.setData true with eng := { s.eng with half := false } } : State)
    some (
      if s.eng.next then
        ({ t with eng := { t.eng with next := false, phase := .start } } : State).arm
      else t.complete (!s.eng.fail))) s

end Sys2Proof.Machine
end

