-- ==== Sys2Proof/Machine/Sequencer.lean ====
section
/-! DEFINITION. The sequencer's seven dispatch operations (spec/41_sequencer.md R241 to R247). Each is performed only
in the states its selector row matches (R121); a completion that matches none is unreachable and the model faults
(R127, R233). -/

namespace Sys2Proof.Machine

/-- A dispatch operation `i` whose work is `f`. -/
def seqOp (i : Instr) (f : State → Result) (s : State) : Result :=
  if decodeSeqOp s.seqop = some i then f s else .fault .strayCompletion

/-- R231, R235: enter state `k` and issue its transaction; the precondition of Issue is that the engine is not
busy. -/
def issueStep (k : Issuing) (s : State) : Result :=
  if s.eng.busy then .fault .issueWhileBusy else .next (s.enter k)

/-- R250: the status byte of a poll. -/
def State.statusByte (s : State) : Byte := s.rbuf.read 0

/-- R241: S.FAIL. -/
def execSFail (s : State) : Result :=
  seqOp .sFail (fun s => .next (s.seqFault .deviceNotPresent)) s

/-- R242: S.RESET.OK. -/
def execSResetOk (s : State) : Result := seqOp .sResetOk (issueStep .calibrate) s

/-- R243: S.CAL.OK. -/
def execSCalOk (s : State) : Result := seqOp .sCalOk (issueStep .pollCal) s

/-- R244: S.POLLCAL.OK: busy takes precedence over cal. -/
def execSPollcalOk (s : State) : Result :=
  seqOp .sPollcalOk (fun s =>
    if statusBusy s.cfg s.statusByte then issueStep .pollCal s
    else if statusCal s.statusByte then issueStep .trigger s
    else .next (s.seqFault .calibrationFailed)) s

/-- R245: S.TRIG.OK. -/
def execSTrigOk (s : State) : Result := seqOp .sTrigOk (issueStep .pollMeas) s

/-- R246: S.POLLMEAS.OK: the cal bit is not examined. -/
def execSPollmeasOk (s : State) : Result :=
  seqOp .sPollmeasOk (fun s =>
    if statusBusy s.cfg s.statusByte then issueStep .pollMeas s else issueStep .read s) s

/-- R247: S.READ.OK: the reading is converted and stored, all in one step. -/
def execSReadOk (s : State) : Result :=
  seqOp .sReadOk (fun s =>
    let raw := rawValues s.cfg s.rbuf.read
    .next { s with seq := { s.seq with
      hum := humWord raw.1
      temp := tempWord raw.2
      ts := s.pins.now
      valid := true
      isNew := true
      state := .idle } }) s

end Sys2Proof.Machine
end

