-- ==== Sys2Proof/Machine/Events.lean ====
section
/-! DEFINITION. The five events (spec/30_encoding.md R111): an event selects an operation of the HOSTOP, UOP or SEQOP
format and performs it in the same atomic step. An event that is not enabled has no step, so it is refused by name.
Last, the placing of an operation before the next step (`State.present`). -/

namespace Sys2Proof.Machine

/-! ### Performing a selected operation -/

/-- R290: perform the operation of a HOSTOP word. Operations of other formats are no host access. -/
def performHostOp (i : Instr) (s : State) : Result :=
  match i with
  | .cmdNop => execCmdNop s
  | .cmdEngBegin => execCmdEngBegin s
  | .cmdSeqInit => execCmdSeqInit s
  | .cmdSeqRequestRead => execCmdSeqRequestRead s
  | .cmdReserved op => execCmdReserved op s
  | .rdCmd => execRdCmd s
  | .rdStatus => execRdStatus s
  | .rdTxnAddr => execRdTxnAddr s
  | .rdTxnWcnt => execRdTxnWcnt s
  | .rdTxnRcnt => execRdTxnRcnt s
  | .rdTxnFlags => execRdTxnFlags s
  | .rdEPos => execRdEPos s
  | .rdEScratch => execRdEScratch s
  | .rdSHum => execRdSHum s
  | .rdSTemp => execRdSTemp s
  | .rdSTs => execRdSTs s
  | .rdParams => execRdParams s
  | .rdWbuf i => execRdWbuf i s
  | .rdRbuf i => execRdRbuf i s
  | .rdUnmapped idx => execRdUnmapped idx s
  | .wrTxnAddr data => execWrTxnAddr data s
  | .wrTxnWcnt data => execWrTxnWcnt data s
  | .wrTxnRcnt data => execWrTxnRcnt data s
  | .wrTxnFlags data => execWrTxnFlags data s
  | .wrWbuf i data => execWrWbuf i data s
  | .wrRo idx => execWrRo idx s
  | .wrUnmapped idx => execWrUnmapped idx s
  | .evHost | .evTick | .evPoll | .evDispatch | .evReset
  | .uStartRs | .uStart | .uTxBitH0 | .uTxBitH1 | .uTxAckH0 | .uTxAckPoll | .uTxAckH1
  | .uRxBitH0 | .uRxBitPoll | .uRxBitH1 | .uRxMackH0 | .uRxMackH1 | .uStopH0 | .uStopH1
  | .sFail | .sResetOk | .sCalOk | .sPollcalOk | .sTrigOk | .sPollmeasOk | .sReadOk =>
    .fault .busFault

/-- R160, R161: perform the micro-operation of a UOP row. Operations of other formats are no micro-operation. -/
def performUop (i : Instr) (s : State) : Result :=
  match i with
  | .uStartRs => execUStartRs s
  | .uStart => execUStart s
  | .uTxBitH0 => execUTxBitH0 s
  | .uTxBitH1 => execUTxBitH1 s
  | .uTxAckH0 => execUTxAckH0 s
  | .uTxAckPoll => execUTxAckPoll s
  | .uTxAckH1 => execUTxAckH1 s
  | .uRxBitH0 => execURxBitH0 s
  | .uRxBitPoll => execURxBitPoll s
  | .uRxBitH1 => execURxBitH1 s
  | .uRxMackH0 => execURxMackH0 s
  | .uRxMackH1 => execURxMackH1 s
  | .uStopH0 => execUStopH0 s
  | .uStopH1 => execUStopH1 s
  | .evHost | .evTick | .evPoll | .evDispatch | .evReset
  | .cmdNop | .cmdEngBegin | .cmdSeqInit | .cmdSeqRequestRead | .cmdReserved _
  | .rdCmd | .rdStatus | .rdTxnAddr | .rdTxnWcnt | .rdTxnRcnt | .rdTxnFlags | .rdEPos | .rdEScratch
  | .rdSHum | .rdSTemp | .rdSTs | .rdParams | .rdWbuf _ | .rdRbuf _ | .rdUnmapped _
  | .wrTxnAddr _ | .wrTxnWcnt _ | .wrTxnRcnt _ | .wrTxnFlags _ | .wrWbuf _ _ | .wrRo _ | .wrUnmapped _
  | .sFail | .sResetOk | .sCalOk | .sPollcalOk | .sTrigOk | .sPollmeasOk | .sReadOk =>
    .fault .busFault

/-- R240: perform the dispatch operation of a SEQOP row. Operations of other formats are no dispatch operation. -/
def performSeqOp (i : Instr) (s : State) : Result :=
  match i with
  | .sFail => execSFail s
  | .sResetOk => execSResetOk s
  | .sCalOk => execSCalOk s
  | .sPollcalOk => execSPollcalOk s
  | .sTrigOk => execSTrigOk s
  | .sPollmeasOk => execSPollmeasOk s
  | .sReadOk => execSReadOk s
  | .evHost | .evTick | .evPoll | .evDispatch | .evReset
  | .cmdNop | .cmdEngBegin | .cmdSeqInit | .cmdSeqRequestRead | .cmdReserved _
  | .rdCmd | .rdStatus | .rdTxnAddr | .rdTxnWcnt | .rdTxnRcnt | .rdTxnFlags | .rdEPos | .rdEScratch
  | .rdSHum | .rdSTemp | .rdSTs | .rdParams | .rdWbuf _ | .rdRbuf _ | .rdUnmapped _
  | .wrTxnAddr _ | .wrTxnWcnt _ | .wrTxnRcnt _ | .wrTxnFlags _ | .wrWbuf _ _ | .wrRo _ | .wrUnmapped _
  | .uStartRs | .uStart | .uTxBitH0 | .uTxBitH1 | .uTxAckH0 | .uTxAckPoll | .uTxAckH1
  | .uRxBitH0 | .uRxBitPoll | .uRxBitH1 | .uRxMackH0 | .uRxMackH1 | .uStopH0 | .uStopH1 =>
    .fault .strayCompletion

/-! ### The events -/

/-- R290: EV.HOST, always enabled: one access, the HOSTOP word the host presents. -/
def execEvHost (s : State) : Result := performHostOp (decodeHostOp s.cfg s.pins.host) s

/-- R160: the arm is answered. -/
def State.disarm (s : State) : State := { s with eng := { s.eng with armed := false } }

/-- R160: EV.TICK, enabled iff `e_armed = 1`. -/
def execEvTick (s : State) : Result :=
  if s.eng.armed then
    match decodeUop s.tickSel with
    | some i => performUop i s.disarm
    | none => .fault .busFault
  else .refused (.eventNotEnabled "EV.TICK")

/-- R161: EV.POLL, enabled iff `e_wait = 1`. -/
def execEvPoll (s : State) : Result :=
  if s.eng.wait then
    match decodeUop s.uop with
    | some i => performUop i s
    | none => .fault .busFault
  else .refused (.eventNotEnabled "EV.POLL")

/-- R240: the completion is consumed. -/
def State.consumeCompletion (s : State) : State := { s with seq := { s.seq with cplPend := false } }

/-- R240: EV.DISPATCH, enabled iff `s_cpl_pend = 1`. -/
def execEvDispatch (s : State) : Result :=
  if s.seq.cplPend then
    match decodeSeqOp s.seqop with
    | some i => performSeqOp i s.consumeCompletion
    | none => .fault .strayCompletion
  else .refused (.eventNotEnabled "EV.DISPATCH")

/-- R370: EV.RESET, always enabled: every field at its reset value, and the one line event `RST`. The parameters, the
supplied inputs and the record of what was observed are not the block's fields and stay. -/
def execEvReset (s : State) : Result :=
  .next (
    ({ State.resetWith s.cfg with
        inputs := s.inputs, draws := s.draws, bus := s.bus, results := s.results } : State).emit .rst)

/-! ### One step -/

/-- B4 of spec/93_implementation_defined.md: `s_err` holds one of the codes that no rule writes. -/
def State.reservedHeld (s : State) : Bool :=
  match s.seq.err with
  | .busNack | .busFault => true
  | .none | .deviceNotPresent | .calibrationFailed => false

/-- After an operation the step's inputs are used up. -/
def afterStep : Result → Result
  | .next s => .next s.advance
  | .fault f => .fault f
  | .refused r => .refused r

/-! ### Placing an operation before the next step -/

/-- Supply a record for the next step before the others. The peer's outputs are released and `now` is 0. -/
def State.supply (s : State) (ev : BitVec 3) (host : BitVec 39) : State :=
  { s with inputs := { ev := ev, host := host, scl := true, sda := true, now := 0#32 } :: s.inputs }

/-- Put the engine in the micro-state a UOP selector names (R113): a POLL selector waits, the others are armed. -/
def State.selectUop (s : State) (w : BitVec 10) : State :=
  { s with eng := { s.eng with
      wait := w.getLsbD 9
      armed := !w.getLsbD 9
      phase := Phase.ofCode (w.extractLsb' 6 3)
      rs := w.getLsbD 5
      bit := w.extractLsb' 1 4
      half := w.getLsbD 0 } }

/-- Put the sequencer in the state a SEQOP selector names (R114), with its completion pending. -/
def State.selectSeqOp (s : State) (w : BitVec 5) : State :=
  match SeqState.ofCode (w.extractLsb' 1 4) with
  | some st => { s with seq := { s.seq with state := st, cplOk := w.getLsbD 0, cplPend := true } }
  | none => s

/-- The word of CMD.NOP, the only operation defined to do nothing (R126). -/
def nopWord : BitVec 39 := hostWord true 0#6 0#32

/-- Place an operation word so that the next step performs it: the event that selects it is supplied, and the state
it is selected from is set. An EV word that the state does not enable gets an operation of its own to select:
U.START for EV.TICK, U.TX.ACK.POLL for EV.POLL, S.RESET.OK for EV.DISPATCH; EV.HOST gets CMD.NOP. -/
def State.present (s : State) : OpWord → State
  | .hostop w => s.supply 0#3 w
  | .uop w => (s.selectUop w).supply (if w.getLsbD 9 then 2#3 else 1#3) nopWord
  | .seqop w => (s.selectSeqOp w).supply 3#3 nopWord
  | .ev w =>
    let s :=
      match w.toNat with
      | 1 => if s.eng.armed && (decodeUop s.tickSel).isSome then s else s.selectUop 0x040#10
      | 2 => if s.eng.wait && (decodeUop s.uop).isSome then s else s.selectUop 0x290#10
      | 3 => if s.seq.cplPend && (decodeSeqOp s.seqop).isSome then s else s.selectSeqOp 0x03#5
      | _ => s
    s.supply w nopWord

end Sys2Proof.Machine
end

