-- ==== Sys2Proof/Machine/Dispatch.lean ====
section
/-! DEFINITION. The dispatch: one arm per operation, each a direct call of its meaning. -/

namespace Sys2Proof.Machine

def exec (i : Instr) (s : State) : Host.Outcome State Fault Refusal :=
  match i with
  | .evHost => Sys2Proof.Machine.execEvHost s
  | .evTick => Sys2Proof.Machine.execEvTick s
  | .evPoll => Sys2Proof.Machine.execEvPoll s
  | .evDispatch => Sys2Proof.Machine.execEvDispatch s
  | .evReset => Sys2Proof.Machine.execEvReset s
  | .cmdNop => Sys2Proof.Machine.execCmdNop s
  | .cmdEngBegin => Sys2Proof.Machine.execCmdEngBegin s
  | .cmdSeqInit => Sys2Proof.Machine.execCmdSeqInit s
  | .cmdSeqRequestRead => Sys2Proof.Machine.execCmdSeqRequestRead s
  | .cmdReserved op => Sys2Proof.Machine.execCmdReserved op s
  | .rdCmd => Sys2Proof.Machine.execRdCmd s
  | .rdStatus => Sys2Proof.Machine.execRdStatus s
  | .rdTxnAddr => Sys2Proof.Machine.execRdTxnAddr s
  | .rdTxnWcnt => Sys2Proof.Machine.execRdTxnWcnt s
  | .rdTxnRcnt => Sys2Proof.Machine.execRdTxnRcnt s
  | .rdTxnFlags => Sys2Proof.Machine.execRdTxnFlags s
  | .rdEPos => Sys2Proof.Machine.execRdEPos s
  | .rdEScratch => Sys2Proof.Machine.execRdEScratch s
  | .rdSHum => Sys2Proof.Machine.execRdSHum s
  | .rdSTemp => Sys2Proof.Machine.execRdSTemp s
  | .rdSTs => Sys2Proof.Machine.execRdSTs s
  | .rdParams => Sys2Proof.Machine.execRdParams s
  | .rdWbuf n => Sys2Proof.Machine.execRdWbuf n s
  | .rdRbuf n => Sys2Proof.Machine.execRdRbuf n s
  | .rdUnmapped idx => Sys2Proof.Machine.execRdUnmapped idx s
  | .wrTxnAddr data => Sys2Proof.Machine.execWrTxnAddr data s
  | .wrTxnWcnt data => Sys2Proof.Machine.execWrTxnWcnt data s
  | .wrTxnRcnt data => Sys2Proof.Machine.execWrTxnRcnt data s
  | .wrTxnFlags data => Sys2Proof.Machine.execWrTxnFlags data s
  | .wrWbuf n data => Sys2Proof.Machine.execWrWbuf n data s
  | .wrRo idx => Sys2Proof.Machine.execWrRo idx s
  | .wrUnmapped idx => Sys2Proof.Machine.execWrUnmapped idx s
  | .uStartRs => Sys2Proof.Machine.execUStartRs s
  | .uStart => Sys2Proof.Machine.execUStart s
  | .uTxBitH0 => Sys2Proof.Machine.execUTxBitH0 s
  | .uTxBitH1 => Sys2Proof.Machine.execUTxBitH1 s
  | .uTxAckH0 => Sys2Proof.Machine.execUTxAckH0 s
  | .uTxAckPoll => Sys2Proof.Machine.execUTxAckPoll s
  | .uTxAckH1 => Sys2Proof.Machine.execUTxAckH1 s
  | .uRxBitH0 => Sys2Proof.Machine.execURxBitH0 s
  | .uRxBitPoll => Sys2Proof.Machine.execURxBitPoll s
  | .uRxBitH1 => Sys2Proof.Machine.execURxBitH1 s
  | .uRxMackH0 => Sys2Proof.Machine.execURxMackH0 s
  | .uRxMackH1 => Sys2Proof.Machine.execURxMackH1 s
  | .uStopH0 => Sys2Proof.Machine.execUStopH0 s
  | .uStopH1 => Sys2Proof.Machine.execUStopH1 s
  | .sFail => Sys2Proof.Machine.execSFail s
  | .sResetOk => Sys2Proof.Machine.execSResetOk s
  | .sCalOk => Sys2Proof.Machine.execSCalOk s
  | .sPollcalOk => Sys2Proof.Machine.execSPollcalOk s
  | .sTrigOk => Sys2Proof.Machine.execSTrigOk s
  | .sPollmeasOk => Sys2Proof.Machine.execSPollmeasOk s
  | .sReadOk => Sys2Proof.Machine.execSReadOk s

end Sys2Proof.Machine
end

