-- ==== Sys2Proof/Machine/Step.lean ====
section
/-! DEFINITION. One step of the machine: the agent that acts is the one the step's inputs name (spec/00_scope.md R8,
spec/30_encoding.md R111), its event is performed by `exec`, and the step's inputs are used up. -/

namespace Sys2Proof.Machine

/-- One step. A held code that no rule writes faults (B4); the EV codes 5..7 have no step (R128). -/
def step (s : State) : Host.Outcome State Fault Refusal :=
  if s.reservedHeld then .fault .reservedCodeHeld
  else
    match decodeEv s.pins.ev with
    | some i => afterStep (exec i s)
    | none => .refused .noSuchEvent

/-- `s` with the operation of the table's word `w` (of `nbits` bits) placed before the next step. -/
def State.withFetchWord (s : State) (nbits w : Nat) : State :=
  match tableWord nbits w with
  | some ow => s.present ow
  | none => s

end Sys2Proof.Machine
end

