-- ==== Sys2Proof/Safety.lean ====
section
/-! DEFINITION. What the claims speak of: the invariants of spec/10_state.md R58 and R59, the facts about the engine's
walk that the rules' corner cases state, the form of the buffers, a quiescent state (spec/00_scope.md R17); the tables
of spec/30_encoding.md written as lists of rows; the state after a BEGIN, a command-store transaction, the conditions
of Viol, the effect of a line event; several steps. -/

namespace Sys2Proof.Machine

/-- R58: the engine invariants (a) to (e). -/
structure EngineInv (s : State) : Prop where
  /-- (a) -/
  busy_armed_wait : s.eng.busy = (s.eng.armed || s.eng.wait)
  /-- (a) -/
  not_armed_and_waiting : ¬(s.eng.armed = true ∧ s.eng.wait = true)
  /-- (b) -/
  wait_half : s.eng.wait = true → s.eng.half = false
  /-- (b) -/
  wait_poll : s.eng.wait = true →
    decodeUop s.uop = some .uTxAckPoll ∨ decodeUop s.uop = some .uRxBitPoll
  /-- (c) -/
  bit_le : s.eng.bit.toNat ≤ 8
  /-- (d) -/
  row : s.eng.phase = .addr ∨ s.eng.phase = .write ∨ s.eng.phase = .read → (decodeUop s.uop).isSome = true
  /-- (e) -/
  idle_released : s.eng.busy = false → s.lines.scl = true ∧ s.lines.sda = true

/-- R59: the sequencer invariants (a) to (c). -/
structure SeqInv (s : State) : Prop where
  /-- (a): exactly one of the two holds. -/
  active_one : s.seq.state.active = true →
    ((s.eng.busy = true ∧ s.eng.owner = .seq) ↔ ¬s.seq.cplPend = true)
  /-- (b) -/
  inactive_none : s.seq.state.active = false →
    s.seq.cplPend = false ∧ ¬(s.eng.busy = true ∧ s.eng.owner = .seq)
  /-- (c) -/
  pend_idle : s.seq.cplPend = true → s.eng.busy = false

/-- What the corner cases of R150, R162 to R175 say holds of the engine between two steps: which counts are nonzero,
where the byte index lies, when `e_rs`, `e_next` and `e_fail` can be set. -/
structure WalkInv (s : State) : Prop where
  /-- R150's precondition, kept in the latches. -/
  wcnt_le : s.latch.wcnt.toNat ≤ s.cfg.wmax
  /-- R150's precondition, kept in the latches. -/
  rcnt_le : s.latch.rcnt.toNat ≤ s.cfg.rmax
  /-- R40: the latch holds WMAX bytes. -/
  wdata_len : s.latch.wdata.length = s.cfg.wmax
  /-- R35, R125: `e_bit` and `e_half` are 0 in START. -/
  start_zero : s.eng.phase = .start → s.eng.bit = 0#4 ∧ s.eng.half = false
  /-- R168, R173: every path into STOP clears `e_bit`. -/
  stop_zero : s.eng.phase = .stop → s.eng.bit = 0#4
  /-- R162: `e_rs` is set only for the START of a read phase. -/
  rs_start : s.eng.rs = true → s.eng.phase = .start ∧ s.eng.dir = true
  /-- R168: `e_dir = 0` implies `e_wcnt >= 1`. -/
  write_nonempty : s.eng.phase = .start ∨ s.eng.phase = .addr → s.eng.dir = false → s.latch.wcnt ≠ 0#8
  /-- R155: a read phase has a nonzero read count. -/
  read_nonempty : s.eng.phase = .start ∨ s.eng.phase = .addr → s.eng.dir = true → s.latch.rcnt ≠ 0#8
  /-- R168: the index of the byte being sent. -/
  write_byte : s.eng.phase = .write → s.eng.byte.toNat < s.latch.wcnt.toNat
  /-- R171: the index of the byte being received. -/
  read_byte : s.eng.phase = .read → s.eng.byte.toNat < s.latch.rcnt.toNat
  /-- R175: `e_next = 1` never coexists with `e_fail = 1`, and a read phase follows it. -/
  next_stop : s.eng.next = true →
    s.eng.phase = .stop ∧ s.eng.dir = true ∧ s.latch.rcnt ≠ 0#8 ∧ s.eng.fail = false
  /-- R168: `e_fail` is set only on the way to STOP. -/
  fail_stop : s.eng.fail = true → s.eng.phase = .stop ∨ s.eng.phase = .failed

/-- What the corner cases of R162 to R175 say of the line outputs between two steps: SCL is low in the first half of a
slot and released in the second, both lines are released during a hold and before a START. -/
structure LineInv (s : State) : Prop where
  /-- R164, R166, R169, R172, R174: SCL is low when the first half of a slot runs. -/
  low_half : s.eng.phase = .addr ∨ s.eng.phase = .write ∨ s.eng.phase = .read ∨ s.eng.phase = .stop →
    s.eng.half = false → s.eng.wait = false → s.lines.scl = false
  /-- R164, R167, R170, R172, R174: SCL is released in the second half of a slot. -/
  high_half : s.eng.phase = .addr ∨ s.eng.phase = .write ∨ s.eng.phase = .read ∨ s.eng.phase = .stop →
    s.eng.half = true → s.lines.scl = true
  /-- R90: the engine reads a line only after releasing it. -/
  wait_released : s.eng.wait = true → s.lines.scl = true ∧ s.lines.sda = true
  /-- R163: both lines are released when U.START runs. -/
  start_released : s.eng.phase = .start → s.eng.rs = false → s.lines.scl = true ∧ s.lines.sda = true
  /-- R162: SCL is low when U.START.RS runs. -/
  start_rs_low : s.eng.phase = .start → s.eng.rs = true → s.lines.scl = false
  /-- R175: SDA is low when the STOP condition is made. -/
  stop_low : s.eng.phase = .stop → s.eng.half = true → s.lines.sda = false

/-- R43, R44: the buffers are in canonical form and hold only bytes that exist. -/
structure BufferInv (s : State) : Prop where
  wbuf_wf : s.wbuf.wf
  rbuf_wf : s.rbuf.wf
  wbuf_bound : ∀ c ∈ s.wbuf, c.1 < s.cfg.wmax
  rbuf_bound : ∀ c ∈ s.rbuf, c.1 < s.cfg.rmax

/-- R47: `s_err` holds one of the codes that are ever written. -/
def ErrInv (s : State) : Prop :=
  s.seq.err = .none ∨ s.seq.err = .deviceNotPresent ∨ s.seq.err = .calibrationFailed

/-- The invariants of the block together. -/
structure Inv (s : State) : Prop where
  engine : EngineInv s
  walk : WalkInv s
  line : LineInv s
  seq : SeqInv s
  buffer : BufferInv s
  err : ErrInv s

/-- R17: a run has ended: nothing of the block has an enabled step. -/
def Quiescent (s : State) : Prop :=
  s.eng.busy = false ∧ s.eng.armed = false ∧ s.eng.wait = false ∧ s.seq.cplPend = false

/-! ### The encoding tables as lists of rows -/

/-- A row of R118: the words `w` with `w &&& mask = pattern` are the operation `instr w`. -/
structure HostRow where
  pattern : BitVec 39
  mask : BitVec 39
  instr : BitVec 39 → Instr

/-- R112: the buffer index in a WBUF or RBUF word: bits 35..32. -/
def bufOf (w : BitVec 39) : BitVec 4 := w.extractLsb' 32 4

/-- R112: the word index: bits 37..32. -/
def idxOf (w : BitVec 39) : Idx := w.extractLsb' 32 6

/-- R112: the write data: bits 31..0. -/
def dataOf (w : BitVec 39) : Word := w.extractLsb' 0 32

/-- R118: the rows of the HOSTOP map with the matches and masks of R300 to R331. With a smaller WMAX or RMAX the unused
buffer indices are unmapped. -/
def hostRows (p : Params) : List HostRow := [
  ⟨0x4000000000#39, 0x7F00000007#39, fun _ => .cmdNop⟩,
  ⟨0x4000000001#39, 0x7F00000007#39, fun _ => .cmdEngBegin⟩,
  ⟨0x4000000002#39, 0x7F00000007#39, fun _ => .cmdSeqInit⟩,
  ⟨0x4000000003#39, 0x7F00000007#39, fun _ => .cmdSeqRequestRead⟩,
  ⟨0x4000000004#39, 0x7F00000004#39, fun w => .cmdReserved (w.extractLsb' 0 2)⟩,
  ⟨0x0000000000#39, 0x7F00000000#39, fun _ => .rdCmd⟩,
  ⟨0x0100000000#39, 0x7F00000000#39, fun _ => .rdStatus⟩,
  ⟨0x0200000000#39, 0x7F00000000#39, fun _ => .rdTxnAddr⟩,
  ⟨0x0300000000#39, 0x7F00000000#39, fun _ => .rdTxnWcnt⟩,
  ⟨0x0400000000#39, 0x7F00000000#39, fun _ => .rdTxnRcnt⟩,
  ⟨0x0500000000#39, 0x7F00000000#39, fun _ => .rdTxnFlags⟩,
  ⟨0x0600000000#39, 0x7F00000000#39, fun _ => .rdEPos⟩,
  ⟨0x0700000000#39, 0x7F00000000#39, fun _ => .rdEScratch⟩,
  ⟨0x0800000000#39, 0x7F00000000#39, fun _ => .rdSHum⟩,
  ⟨0x0900000000#39, 0x7F00000000#39, fun _ => .rdSTemp⟩,
  ⟨0x0A00000000#39, 0x7F00000000#39, fun _ => .rdSTs⟩,
  ⟨0x0B00000000#39, 0x7F00000000#39, fun _ => .rdParams⟩]
  ++ [
  ⟨0x1000000000#39, 0x7000000000#39,
    fun w => if (bufOf w).toNat < p.wmax then .rdWbuf (bufOf w) else .rdUnmapped (idxOf w)⟩,
  ⟨0x2000000000#39, 0x7000000000#39,
    fun w => if (bufOf w).toNat < p.rmax then .rdRbuf (bufOf w) else .rdUnmapped (idxOf w)⟩,
  ⟨0x0C00000000#39, 0x7C00000000#39, fun w => .rdUnmapped (idxOf w)⟩,
  ⟨0x3000000000#39, 0x7000000000#39, fun w => .rdUnmapped (idxOf w)⟩,
  ⟨0x4200000000#39, 0x7F00000000#39, fun w => .wrTxnAddr (dataOf w)⟩,
  ⟨0x4300000000#39, 0x7F00000000#39, fun w => .wrTxnWcnt (dataOf w)⟩,
  ⟨0x4400000000#39, 0x7F00000000#39, fun w => .wrTxnRcnt (dataOf w)⟩,
  ⟨0x4500000000#39, 0x7F00000000#39, fun w => .wrTxnFlags (dataOf w)⟩,
  ⟨0x5000000000#39, 0x7000000000#39,
    fun w => if (bufOf w).toNat < p.wmax then .wrWbuf (bufOf w) (dataOf w) else .wrUnmapped (idxOf w)⟩,
  ⟨0x4100000000#39, 0x7F00000000#39, fun w => .wrRo (idxOf w)⟩,
  ⟨0x4600000000#39, 0x7E00000000#39, fun w => .wrRo (idxOf w)⟩,
  ⟨0x4800000000#39, 0x7C00000000#39, fun w => .wrRo (idxOf w)⟩,
  ⟨0x6000000000#39, 0x7000000000#39,
    fun w => if (bufOf w).toNat < p.rmax then .wrRo (idxOf w) else .wrUnmapped (idxOf w)⟩,
  ⟨0x4C00000000#39, 0x7C00000000#39, fun w => .wrUnmapped (idxOf w)⟩,
  ⟨0x7000000000#39, 0x7000000000#39, fun w => .wrUnmapped (idxOf w)⟩]

/-- Under every parameter choice the words that match `pattern` under `mask` decode to `f p w`. -/
def Selects (pattern mask : BitVec 39) (f : Params → BitVec 39 → Instr) : Prop :=
  ∀ (p : Params) (w : BitVec 39), w &&& mask = pattern → decodeHostOp p w = f p w

/-- R120: the rows of the UOP map: the micro-operation, its match and its mask. -/
def uopRows : List (Instr × BitVec 10 × BitVec 10) := [
  (.uStartRs, 0x060#10, 0x3E0#10), (.uStart, 0x040#10, 0x3E0#10),
  (.uTxBitH0, 0x080#10, 0x391#10), (.uTxBitH1, 0x081#10, 0x391#10),
  (.uTxAckH0, 0x090#10, 0x39F#10), (.uTxAckPoll, 0x290#10, 0x39F#10), (.uTxAckH1, 0x091#10, 0x39F#10),
  (.uRxBitH0, 0x100#10, 0x3D1#10), (.uRxBitPoll, 0x300#10, 0x3D1#10), (.uRxBitH1, 0x101#10, 0x3D1#10),
  (.uRxMackH0, 0x110#10, 0x3DF#10), (.uRxMackH1, 0x111#10, 0x3DF#10),
  (.uStopH0, 0x140#10, 0x3C1#10), (.uStopH1, 0x141#10, 0x3C1#10)]

/-! ### What the operations are said to do -/

/-- R150, R163: the state after a BEGIN of `t` for `o` that starts: every engine field and latch written, the START
condition made, the engine armed. -/
def State.begun (s : State) (t : Txn) (o : Owner) : State :=
  { s with
    latch := t
    eng := {
      phase := .addr
      scratch := t.addr ++ BitVec.ofBool (decide (t.wcnt = 0#8))
      byte := 0#8
      bit := 0#4
      half := false
      dir := decide (t.wcnt = 0#8)
      rs := false
      nack := false
      fail := false
      next := false
      wait := false
      armed := true
      owner := o }
    lines := { scl := false, sda := false }
    bus := s.bus ++ [.setSda false, .setScl false] }

/-- R234: `t` is the command-store transaction with the write bytes `bytes` and the read count `reads`, to `SENSOR_ADDR`
with repeated-start 0. Its bytes past the command's own are free. -/
structure IsCommand (p : Params) (bytes : List Byte) (reads : Nat) (t : Txn) : Prop where
  addr : t.addr = p.sensorAddr
  wcnt : t.wcnt.toNat = bytes.length
  rcnt : t.rcnt.toNat = reads
  rs : t.rs = false
  wdata : t.wdata.take bytes.length = bytes
  wdata_len : t.wdata.length = p.wmax

/-- R343: the operation `i` raises Viol in state `s`. -/
def State.violates (s : State) (i : Instr) : Prop :=
  (i = .cmdEngBegin ∧
    (s.eng.busy = true ∨ s.seq.state.active = true ∨ s.cfg.wmax < s.txn.wcnt.toNat ∨ s.cfg.rmax < s.txn.rcnt.toNat))
  ∨ (i = .cmdSeqInit ∧ (s.eng.busy = true ∨ s.seq.cplPend = true ∨ s.seq.state.active = true))
  ∨ (i = .cmdSeqRequestRead ∧ s.seq.state = .idle ∧ s.eng.busy = true)
  ∨ (∃ op, i = .cmdReserved op)

/-- R152, R153, R370: what one line event does to the line outputs. -/
def LineEvent.apply (l : Lines) : LineEvent → Lines
  | .setSda v => { l with sda := v }
  | .setScl v => { l with scl := v }
  | .readScl _ => l
  | .readSda _ => l
  | .rst => { scl := true, sda := true }

/-- `n` steps, stopping at the first fault or refusal. -/
def steps : Nat → State → Result
  | 0, s => .next s
  | n + 1, s =>
    match step s with
    | .next t => steps n t
    | .fault f => .fault f
    | .refused r => .refused r

end Sys2Proof.Machine
end

