-- ==== Sys2Proof/Certificates/Slice0/Obligations.lean ====
section
/-! DEFINITION. The statements about the model, for the provers. `Obligations.<Name>` formalises the rules of spec/ its
docstring names. The statements that follow one rule say what the operation answers in full, so the same equation is
the operation's result, its completion and its frame: what the record update does not name is unchanged. -/

section Claims
open Sys2Proof Sys2Proof.Machine

/-- For all parameters and every well-formed operation i, decode of encode i is i, every operand at every value. For
S.FAIL, and for the bits a row does not look at, the word is the encoder's choice (notes/assumptions/10.md), which
is the model's own. -/
def Obligations.EncodeThenDecode : Prop :=
  ∀ (p : Params) (i : Instr), WellFormed p i = true → decode p (encode i) = some i

/-- For all parameters and every 39-bit word, exactly one row (match, mask) of the HOSTOP map R118 matches, and the
decoder gives that row's operation; with a smaller WMAX or RMAX the unused buffer indices decode as RD.UNMAPPED or
WR.UNMAPPED. The masks are those of R119. -/
def Obligations.HostWordMatchesOneRow : Prop :=
  ∀ (p : Params) (w : BitVec 39),
    (∃ r ∈ hostRows p, w &&& r.mask = r.pattern ∧ decodeHostOp p w = r.instr w) ∧
    (hostRows p).countP (fun r => w &&& r.mask == r.pattern) = 1

/-- For every 10-bit selector and every row of R120: the selector masked equals the row's match if and only if the
decoder gives the row's micro-operation; at most one row matches; the decoder gives none exactly when no row
matches. -/
def Obligations.UopSelectorMatchesItsRow : Prop :=
  ∀ w : BitVec 10,
    (∀ r ∈ uopRows, w &&& r.2.2 = r.2.1 ↔ decodeUop w = some r.1) ∧
    uopRows.countP (fun r => w &&& r.2.2 == r.2.1) ≤ 1 ∧
    (decodeUop w = none ↔ ∀ r ∈ uopRows, w &&& r.2.2 ≠ r.2.1)

/-- For every 5-bit selector: 0x03, 0x05, 0x07, 0x09, 0x0B and 0x0D (mask 0x1F) decode to the six success operations, a
selector with bit 0 clear and an active state (1..6) to S.FAIL, and nothing else decodes. -/
def Obligations.DispatchSelectorMatchesItsRow : Prop :=
  ∀ w : BitVec 5,
    (w &&& 0x1F#5 = 0x03#5 ↔ decodeSeqOp w = some .sResetOk) ∧
    (w &&& 0x1F#5 = 0x05#5 ↔ decodeSeqOp w = some .sCalOk) ∧
    (w &&& 0x1F#5 = 0x07#5 ↔ decodeSeqOp w = some .sPollcalOk) ∧
    (w &&& 0x1F#5 = 0x09#5 ↔ decodeSeqOp w = some .sTrigOk) ∧
    (w &&& 0x1F#5 = 0x0B#5 ↔ decodeSeqOp w = some .sPollmeasOk) ∧
    (w &&& 0x1F#5 = 0x0D#5 ↔ decodeSeqOp w = some .sReadOk) ∧
    (w &&& 0x01#5 = 0x00#5 ∧ 1 ≤ (w >>> 1).toNat ∧ (w >>> 1).toNat ≤ 6 ↔ decodeSeqOp w = some .sFail) ∧
    (((w >>> 1).toNat = 0 ∨ 7 ≤ (w >>> 1).toNat) → decodeSeqOp w = none)

/-- The codes 0..4 decode to EV.HOST, EV.TICK, EV.POLL, EV.DISPATCH and EV.RESET; the codes 5..7 decode to nothing, and
no state takes a next state on them. -/
def Obligations.EventCodesNameTheirAgents : Prop :=
  decodeEv 0#3 = some .evHost ∧ decodeEv 1#3 = some .evTick ∧ decodeEv 2#3 = some .evPoll ∧
  decodeEv 3#3 = some .evDispatch ∧ decodeEv 4#3 = some .evReset ∧
  ∀ w : BitVec 3, 5 ≤ w.toNat → decodeEv w = none ∧ ∀ s t : State, s.pins.ev = w → step s ≠ .next t

/-- For every state the UOP selector holds e_wait at bit 9, e_phase at 8..6, e_rs at 5, e_bit at 4..1 and e_half at 0; a
TICK's has bit 9 clear and is otherwise the same, a POLL's has bit 9 set; the SEQOP selector holds s_state at 4..1
and s_cpl_ok at 0. -/
def Obligations.SelectorsAreReadFromState : Prop :=
  ∀ s : State,
    (s.uop.getLsbD 9 = s.eng.wait ∧ s.uop.extractLsb' 6 3 = s.eng.phase.code ∧ s.uop.getLsbD 5 = s.eng.rs ∧
      s.uop.extractLsb' 1 4 = s.eng.bit ∧ s.uop.getLsbD 0 = s.eng.half) ∧
    (s.tickSel.getLsbD 9 = false ∧ s.tickSel.extractLsb' 0 9 = s.uop.extractLsb' 0 9) ∧
    (s.eng.wait = true → s.uop.getLsbD 9 = true) ∧
    (s.seqop.extractLsb' 1 4 = s.seq.state.code ∧ s.seqop.getLsbD 0 = s.seq.cplOk)

/-- A few words of each format, as the spec writes them, decode to their operations under the reference parameters. -/
def Obligations.WrittenWordsDecode : Prop :=
  decode Params.reference (.hostop 0x4000000001#39) = some .cmdEngBegin ∧
  decode Params.reference (.hostop 0x4000000008#39) = some .cmdNop ∧
  decode Params.reference (.hostop 0x0100000000#39) = some .rdStatus ∧
  decode Params.reference (.hostop 0x2500000000#39) = some (.rdRbuf 5#4) ∧
  decode Params.reference (.hostop 0x4200000038#39) = some (.wrTxnAddr 0x38#32) ∧
  decode Params.reference (.hostop 0x50000000BA#39) = some (.wrWbuf 0#4 0xBA#32) ∧
  decode Params.reference (.hostop 0x7F00000001#39) = some (.wrUnmapped 63#6) ∧
  decode Params.reference (.uop 0x082#10) = some .uTxBitH0 ∧
  decode Params.reference (.uop 0x30A#10) = some .uRxBitPoll ∧
  decode Params.reference (.uop 0x092#10) = none ∧
  decode Params.reference (.seqop 0x0C#5) = some .sFail ∧
  decode Params.reference (.seqop 0x0D#5) = some .sReadOk ∧
  decode Params.reference (.seqop 0x0E#5) = none ∧
  decode Params.reference (.ev 3#3) = some .evDispatch

/-- When the EV code of the step's inputs decodes to i and s_err holds no reserved code, step is exec of i; after a next
state the step's input record is gone and the step counter is one higher (the model's own bookkeeping,
notes/assumptions/2.md). -/
def Obligations.StepRunsTheDecodedEvent : Prop :=
  ∀ (s : State) (i : Instr), s.reservedHeld = false → decodeEv s.pins.ev = some i →
    step s =
      match exec i s with
      | .next t => .next { t with inputs := t.inputs.tail, draws := t.draws + 1 }
      | .fault f => .fault f
      | .refused r => .refused r

/-- EV code 0 is EV.HOST; in every state exec of EV.HOST is exec of the operation its 39-bit word decodes to, and it
answers a next state. -/
def Obligations.HostStepPerformsOneAccess : Prop :=
  decodeEv 0#3 = some .evHost ∧
  ∀ s : State, exec .evHost s = exec (decodeHostOp s.cfg s.pins.host) s ∧ ∃ t, exec .evHost s = .next t

/-- Armed: exec of EV.TICK is exec of the micro-operation the selector (w = 0) matches, in the state with e_armed
cleared. Not armed: no step (the refusal's name is the model's, notes/assumptions/6.md). In every state that meets
the invariant and is armed it answers a next state. -/
def Obligations.TickPerformsTheSelectedMicroOp : Prop :=
  (∀ (s : State) (i : Instr), s.eng.armed = true → decodeUop s.tickSel = some i →
    exec .evTick s = exec i { s with eng := { s.eng with armed := false } }) ∧
  (∀ s : State, s.eng.armed = false → exec .evTick s = .refused (.eventNotEnabled "EV.TICK")) ∧
  (∀ s : State, Inv s → s.eng.armed = true → ∃ t, exec .evTick s = .next t)

/-- Waiting: exec of EV.POLL is exec of the micro-operation the selector (w = 1) matches. Not waiting: no step (the
refusal's name is the model's, notes/assumptions/6.md). In every state that meets the invariant and waits it answers
a next state, and the micro-operation is one of the two polls. -/
def Obligations.PollPerformsTheSelectedMicroOp : Prop :=
  (∀ (s : State) (i : Instr), s.eng.wait = true → decodeUop s.uop = some i → exec .evPoll s = exec i s) ∧
  (∀ s : State, s.eng.wait = false → exec .evPoll s = .refused (.eventNotEnabled "EV.POLL")) ∧
  (∀ s : State, Inv s → s.eng.wait = true → ∃ t, exec .evPoll s = .next t ∧
    (exec .evPoll s = exec .uTxAckPoll s ∨ exec .evPoll s = exec .uRxBitPoll s))

/-- Pending: exec of EV.DISPATCH is exec of the operation the SEQOP selector matches, in the state with s_cpl_pend
cleared. Not pending: no step (the refusal's name is the model's, notes/assumptions/6.md). In every state that meets
the invariant with a completion pending it answers a next state. -/
def Obligations.DispatchConsumesOneCompletion : Prop :=
  (∀ (s : State) (i : Instr), s.seq.cplPend = true → decodeSeqOp s.seqop = some i →
    exec .evDispatch s = exec i { s with seq := { s.seq with cplPend := false } }) ∧
  (∀ s : State, s.seq.cplPend = false → exec .evDispatch s = .refused (.eventNotEnabled "EV.DISPATCH")) ∧
  (∀ s : State, Inv s → s.seq.cplPend = true → ∃ t, exec .evDispatch s = .next t)

/-- If e_busy, e_armed, e_wait and s_cpl_pend are all 0 (and s_err holds a code that is ever written), EV codes 1, 2 and
3 have no step, and a step on codes 0 or 4 takes a next state. That an event without a step is refused as not
enabled is the model's choice (notes/assumptions/6.md): R17 and R8 say only that it is not enabled. -/
def Obligations.OnlyHostAndResetAtTheEnd : Prop :=
  ∀ s : State, ErrInv s → Quiescent s →
    (s.pins.ev = 1#3 ∨ s.pins.ev = 2#3 ∨ s.pins.ev = 3#3 → ∃ m, step s = .refused (.eventNotEnabled m)) ∧
    (s.pins.ev = 0#3 ∨ s.pins.ev = 4#3 → ∃ t, step s = .next t)

/-- In a state that no run reaches, where the event is enabled and its selector matches no row, a TICK or POLL faults
with busFault and a DISPATCH with strayCompletion. The spec asks only that a model faults (R125, R127); which name a
fault has is the model's choice (notes/assumptions/7.md). -/
def Obligations.UnmatchedSelectorsFault : Prop :=
  ∀ s : State,
    (s.eng.armed = true → decodeUop s.tickSel = none → exec .evTick s = .fault .busFault) ∧
    (s.eng.wait = true → decodeUop s.uop = none → exec .evPoll s = .fault .busFault) ∧
    (s.seq.cplPend = true → decodeSeqOp s.seqop = none → exec .evDispatch s = .fault .strayCompletion)

/-- From every state EV.RESET answers a next state in which every field of R60 holds its reset value, the parameters are
as before, the bus history has grown by RST alone, and the state is quiescent. -/
def Obligations.ResetPutsEveryFieldAtItsResetValue : Prop :=
  ∀ s : State, ∃ t, exec .evReset s = .next t ∧
    t.eng = {
      phase := .idle, scratch := 0#8, byte := 0#8, bit := 0#4, half := false, dir := false, rs := false, nack := false
      fail := false, next := false, wait := false, armed := false, owner := .host } ∧
    t.latch = { addr := 0#7, wcnt := 0#8, rcnt := 0#8, rs := false, wdata := List.replicate s.cfg.wmax 0#8 } ∧
    t.lines = { scl := true, sda := true } ∧
    t.txn = { addr := 0#7, wcnt := 0#8, rcnt := 0#8, rs := false } ∧
    (∀ a, t.wbuf.read a = 0#8) ∧ (∀ a, t.rbuf.read a = 0#8) ∧ t.viol = false ∧
    t.seq = {
      state := .off, err := .none, isNew := false, valid := false, cplPend := false, cplOk := false
      hum := 0#32, temp := 0#32, ts := 0#32 } ∧
    t.cfg = s.cfg ∧ t.bus = s.bus ++ [.rst] ∧ Quiescent t

/-- State.reset holds every field of R60 at its value, both buffers all 0. Its parameters are the reference ones, which
is the model's choice (notes/assumptions/1.md), since R60 says nothing of them. So a read of STATUS returns
0x00300000 (R52) and one of PARAMS 0x00381010 (R56), each the first result of a list that the model starts empty
(notes/assumptions/3.md). -/
def Obligations.StateAfterReset : Prop :=
  State.reset.cfg = Params.reference ∧
    State.reset.eng = {
      phase := .idle, scratch := 0#8, byte := 0#8, bit := 0#4, half := false, dir := false, rs := false, nack := false
      fail := false, next := false, wait := false, armed := false, owner := .host } ∧
    State.reset.latch = { addr := 0#7, wcnt := 0#8, rcnt := 0#8, rs := false, wdata := List.replicate 16 0#8 } ∧
    State.reset.lines = { scl := true, sda := true } ∧
    State.reset.txn = { addr := 0#7, wcnt := 0#8, rcnt := 0#8, rs := false } ∧
    (∀ a, State.reset.wbuf.read a = 0#8) ∧ (∀ a, State.reset.rbuf.read a = 0#8) ∧ State.reset.viol = false ∧
    State.reset.seq = {
      state := .off, err := .none, isNew := false, valid := false, cplPend := false, cplOk := false
      hum := 0#32, temp := 0#32, ts := 0#32 } ∧
    exec .rdStatus State.reset = .next { State.reset with results := [0x00300000#32] } ∧
    exec .rdParams State.reset = .next { State.reset with results := [0x00381010#32] }

/-- U.START.RS (selector 0x060/0x3E0) does SDA:=1 SCL:=1, clears e_rs and arms. U.START (0x040/0x3E0) does SDA:=0
SCL:=0, loads the address byte, goes to ADDR bit 0 half 0 and arms. Under the line invariant SCL is low when
U.START.RS runs and both lines are released when U.START runs. -/
def Obligations.StartMicroOps : Prop :=
  ∀ s : State,
    (s.tickSel &&& 0x3E0#10 = 0x060#10 →
      exec .uStartRs s = .next { s with
        lines := { scl := true, sda := true }
        bus := s.bus ++ [.setSda true, .setScl true]
        eng := { s.eng with rs := false, armed := true } } ∧
      (LineInv s → s.lines.scl = false)) ∧
    (s.tickSel &&& 0x3E0#10 = 0x040#10 →
      exec .uStart s = .next { s with
        lines := { scl := false, sda := false }
        bus := s.bus ++ [.setSda false, .setScl false]
        eng := { s.eng with
          scratch := s.latch.addr ++ BitVec.ofBool s.eng.dir
          phase := .addr
          bit := 0#4
          half := false
          armed := true } } ∧
      (LineInv s → s.lines.scl = true ∧ s.lines.sda = true))

/-- U.TX.BIT.H0 (0x080/0x391): SDA := e_scratch[7 - e_bit], SCL := 1, e_half := 1, armed; under the line invariant SCL
is low when SDA changes. U.TX.BIT.H1 (0x081/0x391): SCL := 0, e_half := 0, e_bit + 1 (at most 8), armed. Nothing
else changes. -/
def Obligations.TransmitBitMicroOps : Prop :=
  ∀ s : State,
    (s.tickSel &&& 0x391#10 = 0x080#10 →
      exec .uTxBitH0 s = .next { s with
        lines := { scl := true, sda := s.eng.scratch.getLsbD (7 - s.eng.bit.toNat) }
        bus := s.bus ++ [.setSda (s.eng.scratch.getLsbD (7 - s.eng.bit.toNat)), .setScl true]
        eng := { s.eng with half := true, armed := true } } ∧
      s.eng.bit.toNat ≤ 7 ∧ (LineInv s → s.eng.wait = false → s.lines.scl = false)) ∧
    (s.tickSel &&& 0x391#10 = 0x081#10 →
      exec .uTxBitH1 s = .next { s with
        lines := { s.lines with scl := false }
        bus := s.bus ++ [.setScl false]
        eng := { s.eng with half := false, bit := s.eng.bit + 1#4, armed := true } } ∧
      (s.eng.bit + 1#4).toNat ≤ 8)

/-- U.TX.ACK.H0 (0x090/0x39F) and U.RX.BIT.H0 (0x100/0x3D1) do SDA:=1 SCL:=1 and set e_wait; they do not arm and change
nothing else; under the line invariant SCL is low when they run. -/
def Obligations.ReleaseForTheSampleMicroOps : Prop :=
  ∀ s : State,
    (s.tickSel &&& 0x39F#10 = 0x090#10 →
      exec .uTxAckH0 s = .next { s with
        lines := { scl := true, sda := true }
        bus := s.bus ++ [.setSda true, .setScl true]
        eng := { s.eng with wait := true } } ∧
      (LineInv s → s.eng.wait = false → s.lines.scl = false)) ∧
    (s.tickSel &&& 0x3D1#10 = 0x100#10 →
      exec .uRxBitH0 s = .next { s with
        lines := { scl := true, sda := true }
        bus := s.bus ++ [.setSda true, .setScl true]
        eng := { s.eng with wait := true } } ∧
      (LineInv s → s.eng.wait = false → s.lines.scl = false))

/-- Selector 0x290/0x39F. The level read is the wired-AND of the master's and the peer's output. SCL low: only the event
SCL?=0. SCL high: events SCL?=1 SDA?=d, e_nack := d, e_wait := 0, e_half := 1, armed. Nothing else changes. Under
the line invariant the levels read are the peer's draws. -/
def Obligations.AckPollWaitsAndSamples : Prop :=
  ∀ s : State, s.uop &&& 0x39F#10 = 0x290#10 →
    ((s.lines.scl && s.pins.scl) = false →
      exec .uTxAckPoll s = .next { s with bus := s.bus ++ [.readScl false] }) ∧
    ((s.lines.scl && s.pins.scl) = true →
      exec .uTxAckPoll s = .next { s with
        bus := s.bus ++ [.readScl true, .readSda (s.lines.sda && s.pins.sda)]
        eng := { s.eng with nack := s.lines.sda && s.pins.sda, wait := false, half := true, armed := true } }) ∧
    (LineInv s → (s.lines.scl && s.pins.scl) = s.pins.scl ∧ (s.lines.sda && s.pins.sda) = s.pins.sda)

/-- Selector 0x091/0x39F. SCL := 0, e_half := 0, e_bit := 0, armed, and by branch: NACK goes to STOP with e_fail; the
address ACKed goes to WRITE with byte 0 loaded or to READ; a write byte ACKed loads the next byte, or goes to START
with e_rs, or to STOP with e_next, or to STOP. Nothing else changes. The premise WalkInv says the byte to load
exists. -/
def Obligations.AckSlotDecidesTheNextByteOrPhase : Prop :=
  ∀ s : State, WalkInv s → s.tickSel &&& 0x39F#10 = 0x091#10 →
    exec .uTxAckH1 s = .next { s with
      lines := { s.lines with scl := false }
      bus := s.bus ++ [.setScl false]
      eng :=
        if s.eng.nack = true then
          { s.eng with half := false, bit := 0#4, fail := true, next := false, phase := .stop, armed := true }
        else if s.eng.phase = .addr then
          if s.eng.dir = false then
            { s.eng with
              half := false, bit := 0#4, phase := .write, byte := 0#8, scratch := s.latch.wdata.getD 0 0#8
              armed := true }
          else { s.eng with half := false, bit := 0#4, phase := .read, byte := 0#8, armed := true }
        else if s.eng.byte.toNat + 1 < s.latch.wcnt.toNat then
          { s.eng with
            half := false, bit := 0#4, byte := s.eng.byte + 1#8
            scratch := s.latch.wdata.getD (s.eng.byte.toNat + 1) 0#8, armed := true }
        else if 0 < s.latch.rcnt.toNat then
          if s.latch.rs = true then
            { s.eng with
              half := false, bit := 0#4, byte := s.eng.byte + 1#8, dir := true, phase := .start, rs := true
              armed := true }
          else
            { s.eng with
              half := false, bit := 0#4, byte := s.eng.byte + 1#8, dir := true, phase := .stop, next := true
              armed := true }
        else
          { s.eng with
            half := false, bit := 0#4, byte := s.eng.byte + 1#8, phase := .stop, next := false, armed := true } } ∧
    (s.eng.nack = false → s.eng.phase = .addr → s.eng.dir = false → 0 < s.latch.wdata.length) ∧
    (s.eng.nack = false → s.eng.phase = .write → s.eng.byte.toNat + 1 < s.latch.wcnt.toNat →
      s.eng.byte.toNat + 1 < s.latch.wdata.length)

/-- Selector 0x300/0x3D1. SCL low: only the event SCL?=0. SCL high: events SCL?=1 SDA?=b, e_scratch := (e_scratch << 1 |
b)[7:0], e_wait := 0, e_half := 1, armed. Nothing else changes. Eight such shifts leave exactly the eight bits,
whatever was there before. -/
def Obligations.ReceivePollWaitsAndShifts : Prop :=
  (∀ s : State, s.uop &&& 0x3D1#10 = 0x300#10 →
    ((s.lines.scl && s.pins.scl) = false →
      exec .uRxBitPoll s = .next { s with bus := s.bus ++ [.readScl false] }) ∧
    ((s.lines.scl && s.pins.scl) = true →
      exec .uRxBitPoll s = .next { s with
        bus := s.bus ++ [.readScl true, .readSda (s.lines.sda && s.pins.sda)]
        eng := { s.eng with
          scratch := s.eng.scratch.extractLsb' 0 7 ++ BitVec.ofBool (s.lines.sda && s.pins.sda)
          wait := false
          half := true
          armed := true } })) ∧
  (∀ x b : Byte,
    (List.range 8).foldl (fun x k => x.extractLsb' 0 7 ++ BitVec.ofBool (b.getLsbD (7 - k))) x = b)

/-- Selector 0x101/0x3D1. SCL := 0, e_half := 0, e_bit + 1, armed; if the new e_bit is 8, rbuf[e_byte] reads e_scratch
afterwards and every other byte of rbuf reads as before; else every byte of rbuf reads as before. Nothing else
changes. The premise WalkInv says the index is in range. -/
def Obligations.EighthBitStoresTheByte : Prop :=
  ∀ s : State, WalkInv s → s.tickSel &&& 0x3D1#10 = 0x101#10 →
    ∃ m : Memory,
      exec .uRxBitH1 s = .next { s with
        lines := { s.lines with scl := false }
        bus := s.bus ++ [.setScl false]
        eng := { s.eng with half := false, bit := s.eng.bit + 1#4, armed := true }
        rbuf := m } ∧
      (∀ a, m.read a =
        if s.eng.bit + 1#4 = 8#4 ∧ a = s.eng.byte.toNat then s.eng.scratch else s.rbuf.read a) ∧
      s.eng.byte.toNat < s.cfg.rmax

/-- U.RX.MACK.H0 (0x110/0x3DF): SDA := (e_byte + 1 = e_rcnt), SCL := 1, e_half := 1, armed. U.RX.MACK.H1 (0x111/0x3DF):
SCL := 0, e_half := 0, e_bit := 0, armed, and STOP with e_next := 0 after the last byte (e_byte kept), else e_byte +
1. Nothing else changes. -/
def Obligations.MasterAckMicroOps : Prop :=
  ∀ s : State,
    (s.tickSel &&& 0x3DF#10 = 0x110#10 →
      exec .uRxMackH0 s = .next { s with
        lines := { scl := true, sda := decide (s.eng.byte.toNat + 1 = s.latch.rcnt.toNat) }
        bus := s.bus ++ [.setSda (decide (s.eng.byte.toNat + 1 = s.latch.rcnt.toNat)), .setScl true]
        eng := { s.eng with half := true, armed := true } }) ∧
    (s.tickSel &&& 0x3DF#10 = 0x111#10 →
      exec .uRxMackH1 s = .next { s with
        lines := { s.lines with scl := false }
        bus := s.bus ++ [.setScl false]
        eng :=
          if s.eng.byte.toNat + 1 = s.latch.rcnt.toNat then
            { s.eng with half := false, bit := 0#4, phase := .stop, next := false, armed := true }
          else { s.eng with half := false, bit := 0#4, byte := s.eng.byte + 1#8, armed := true } })

/-- U.STOP.H0 (0x140/0x3C1): SDA := 0, SCL := 1, e_half := 1, armed; under the line invariant SCL is low when it runs.
U.STOP.H1 (0x141/0x3C1): SDA := 1, e_half := 0, and START with e_next cleared and armed, or DONE/FAILED with
s_cpl_pend and s_cpl_ok written for a sequencer-owned transaction only, not armed by it. Nothing else changes. Under
the line invariant SCL is high when SDA rises; e_next and e_fail never coexist. -/
def Obligations.StopMicroOps : Prop :=
  ∀ s : State,
    (s.tickSel &&& 0x3C1#10 = 0x140#10 →
      exec .uStopH0 s = .next { s with
        lines := { scl := true, sda := false }
        bus := s.bus ++ [.setSda false, .setScl true]
        eng := { s.eng with half := true, armed := true } } ∧
      (LineInv s → s.eng.wait = false → s.lines.scl = false)) ∧
    (s.tickSel &&& 0x3C1#10 = 0x141#10 →
      exec .uStopH1 s = .next { s with
        lines := { s.lines with sda := true }
        bus := s.bus ++ [.setSda true]
        eng :=
          if s.eng.next = true then { s.eng with half := false, next := false, phase := .start, armed := true }
          else { s.eng with half := false, phase := if s.eng.fail = true then .failed else .done }
        seq :=
          if s.eng.next = false ∧ s.eng.owner = .seq then { s.seq with cplPend := true, cplOk := !s.eng.fail }
          else s.seq } ∧
      (LineInv s → s.lines.scl = true ∧ s.lines.sda = false) ∧
      (WalkInv s → ¬(s.eng.next = true ∧ s.eng.fail = true)))

/-- In every active state with s_cpl_ok = 0, S.FAIL answers the state with s_err = DEVICE_NOT_PRESENT and s_state =
ERROR; no transaction is issued and everything else, the readings included, is unchanged. -/
def Obligations.FailedTransactionEntersError : Prop :=
  ∀ s : State, s.seq.state.active = true → s.seqop &&& 0x01#5 = 0x00#5 →
    exec .sFail s = .next { s with seq := { s.seq with err := .deviceNotPresent, state := .error } }

/-- With the engine not busy: S.RESET.OK (0x03) enters CALIBRATE and begins the write [0xE1, 0x08, 0x00]; S.CAL.OK
(0x05) enters POLL_CAL and begins the 1-byte read; S.TRIG.OK (0x09) enters POLL_MEAS and begins the 1-byte read.
Nothing but s_state and what BEGIN writes changes. The latched bytes past the command are free values
(notes/assumptions/4.md). -/
def Obligations.FinishedWriteOrReadAdvancesTheSequencer : Prop :=
  ∀ s : State, s.eng.busy = false →
    (s.seqop &&& 0x1F#5 = 0x03#5 → ∃ txn, IsCommand s.cfg [0xE1#8, 0x08#8, 0x00#8] 0 txn ∧
      exec .sResetOk s =
        .next (({ s with seq := { s.seq with state := .calibrate } } : State).begun txn .seq)) ∧
    (s.seqop &&& 0x1F#5 = 0x05#5 → ∃ txn, IsCommand s.cfg [] 1 txn ∧
      exec .sCalOk s =
        .next (({ s with seq := { s.seq with state := .pollCal } } : State).begun txn .seq)) ∧
    (s.seqop &&& 0x1F#5 = 0x09#5 → ∃ txn, IsCommand s.cfg [] 1 txn ∧
      exec .sTrigOk s =
        .next (({ s with seq := { s.seq with state := .pollMeas } } : State).begun txn .seq))

/-- Selector 0x07/0x1F. The status byte is rbuf[0]. Busy bit set: the 1-byte read is issued again and s_state stays
POLL_CAL. Busy clear and bit 3 set: TRIGGER and the trigger write. Both clear: s_err = CALIBRATION_FAILED, s_state =
ERROR, no transaction. The branches that issue need the engine not busy, as Issue does. Nothing else changes. -/
def Obligations.CalibrationPollBranches : Prop :=
  ∀ s : State, s.seqop &&& 0x1F#5 = 0x07#5 →
    (s.eng.busy = false → (s.rbuf.read 0).getLsbD s.cfg.busyBit.val = true →
      ∃ txn, IsCommand s.cfg [] 1 txn ∧ exec .sPollcalOk s = .next (s.begun txn .seq)) ∧
    (s.eng.busy = false → (s.rbuf.read 0).getLsbD s.cfg.busyBit.val = false → (s.rbuf.read 0).getLsbD 3 = true →
      ∃ txn, IsCommand s.cfg s.cfg.trigger 0 txn ∧
        exec .sPollcalOk s =
          .next (({ s with seq := { s.seq with state := .trigger } } : State).begun txn .seq)) ∧
    ((s.rbuf.read 0).getLsbD s.cfg.busyBit.val = false → (s.rbuf.read 0).getLsbD 3 = false →
      exec .sPollcalOk s =
        .next { s with seq := { s.seq with err := .calibrationFailed, state := .error } })

/-- Selector 0x0B/0x1F, engine not busy. Busy bit of rbuf[0] set: the 1-byte read is issued again and s_state stays
POLL_MEAS. Clear: s_state = READ and the read of READ_LEN bytes begins. Nothing else changes. -/
def Obligations.MeasurementPollBranches : Prop :=
  ∀ s : State, s.eng.busy = false → s.seqop &&& 0x1F#5 = 0x0B#5 →
    ((s.rbuf.read 0).getLsbD s.cfg.busyBit.val = true →
      ∃ txn, IsCommand s.cfg [] 1 txn ∧ exec .sPollmeasOk s = .next (s.begun txn .seq)) ∧
    ((s.rbuf.read 0).getLsbD s.cfg.busyBit.val = false →
      ∃ txn, IsCommand s.cfg [] s.cfg.readLen txn ∧
        exec .sPollmeasOk s =
          .next (({ s with seq := { s.seq with state := .read } } : State).begun txn .seq))

/-- Selector 0x0D/0x1F. s_hum = Hum(rh), s_temp = Temp(rt), s_ts = now, s_valid = s_new = 1, s_state = IDLE; nothing
else changes, no transaction is issued. With the reference RAW_LAYOUT rh = b1 << 12 | b2 << 4 | b3 >> 4 and rt = (b3
& 0x0F) << 16 | b4 << 8 | b5. -/
def Obligations.ReadCompletionStoresTheReading : Prop :=
  ∀ s : State, s.seqop &&& 0x1F#5 = 0x0D#5 →
    exec .sReadOk s = .next { s with seq := { s.seq with
      hum := humWord (rawValues s.cfg s.rbuf.read).1
      temp := tempWord (rawValues s.cfg s.rbuf.read).2
      ts := s.pins.now
      valid := true
      isNew := true
      state := .idle } } ∧
    (s.cfg.rawLayout = .reference →
      (rawValues s.cfg s.rbuf.read).1.toNat =
        (s.rbuf.read 1).toNat * 2 ^ 12 + (s.rbuf.read 2).toNat * 2 ^ 4 + (s.rbuf.read 3).toNat / 2 ^ 4 ∧
      (rawValues s.cfg s.rbuf.read).2.toNat =
        (s.rbuf.read 3).toNat % 2 ^ 4 * 2 ^ 16 + (s.rbuf.read 4).toNat * 2 ^ 8 + (s.rbuf.read 5).toNat)

/-- A write to CMD with data[2:0] = 0 decodes to CMD.NOP, which changes nothing; with data[2:0] in 4..7 to CMD.RESERVED,
which sets viol and changes nothing else. data[31:3] is ignored. -/
def Obligations.NopAndReservedCommands : Prop :=
  Selects 0x4000000000#39 0x7F00000007#39 (fun _ _ => .cmdNop) ∧
  (∀ s : State, exec .cmdNop s = .next s) ∧
  Selects 0x4000000004#39 0x7F00000004#39 (fun _ w => .cmdReserved (w.extractLsb' 0 2)) ∧
  (∀ (s : State) (op : BitVec 2), exec (.cmdReserved op) s = .next { s with viol := true })

/-- Refused (viol set, nothing else) if the engine is busy, the sequencer is active or a count exceeds its buffer. Else
with both counts 0 nothing changes. Else the transaction (txn_addr, txn_wcnt, txn_rcnt, txn_rs, wbuf[0..WMAX-1]) is
latched for HOST and the first micro-step done: e_phase ADDR, address byte loaded, lines low, armed. Nothing else
changes. -/
def Obligations.EngineBeginCommand : Prop :=
  Selects 0x4000000001#39 0x7F00000007#39 (fun _ _ => .cmdEngBegin) ∧
  ∀ s : State,
    (s.violates .cmdEngBegin → exec .cmdEngBegin s = .next { s with viol := true }) ∧
    (¬s.violates .cmdEngBegin → s.txn.wcnt = 0#8 → s.txn.rcnt = 0#8 → exec .cmdEngBegin s = .next s) ∧
    (¬s.violates .cmdEngBegin → s.txn.wcnt ≠ 0#8 ∨ s.txn.rcnt ≠ 0#8 →
      exec .cmdEngBegin s = .next (s.begun {
        addr := s.txn.addr, wcnt := s.txn.wcnt, rcnt := s.txn.rcnt, rs := s.txn.rs
        wdata := (List.range s.cfg.wmax).map s.wbuf.read } .host))

/-- Refused (viol set, nothing else) if the engine is busy, a completion is pending or the sequencer is active. Else
s_err = NONE, s_new = 0, s_state = RESET and the write [0xBA] begins; the readings, s_valid and everything else are
kept. -/
def Obligations.SequencerInitCommand : Prop :=
  Selects 0x4000000002#39 0x7F00000007#39 (fun _ _ => .cmdSeqInit) ∧
  ∀ s : State,
    (s.violates .cmdSeqInit → exec .cmdSeqInit s = .next { s with viol := true }) ∧
    (¬s.violates .cmdSeqInit → ∃ txn, IsCommand s.cfg [0xBA#8] 0 txn ∧
      exec .cmdSeqInit s =
        .next (({ s with seq := { s.seq with err := .none, isNew := false, state := .reset } } : State).begun txn
          .seq))

/-- In every state but IDLE nothing changes and viol is not set. In IDLE with the engine busy viol is set and nothing
else. In IDLE with the engine not busy s_new = 0, s_state = TRIGGER and the trigger write begins; everything else is
kept. -/
def Obligations.RequestReadCommand : Prop :=
  Selects 0x4000000003#39 0x7F00000007#39 (fun _ _ => .cmdSeqRequestRead) ∧
  ∀ s : State,
    (s.seq.state ≠ .idle → exec .cmdSeqRequestRead s = .next s) ∧
    (s.seq.state = .idle → s.eng.busy = true → exec .cmdSeqRequestRead s = .next { s with viol := true }) ∧
    (s.seq.state = .idle → s.eng.busy = false → ∃ txn, IsCommand s.cfg s.cfg.trigger 0 txn ∧
      exec .cmdSeqRequestRead s =
        .next (({ s with seq := { s.seq with isNew := false, state := .trigger } } : State).begun txn .seq))

/-- Each word decodes to its read; the read appends the register, zero-extended, to the results the host receives, and
changes nothing else. PARAMS is WMAX at 7..0, RMAX at 15..8, SENSOR_ADDR at 22..16 and 0 above, 0x00381010 with the
reference parameters. -/
def Obligations.RegisterReads : Prop :=
  Selects 0x0200000000#39 0x7F00000000#39 (fun _ _ => .rdTxnAddr) ∧
  Selects 0x0300000000#39 0x7F00000000#39 (fun _ _ => .rdTxnWcnt) ∧
  Selects 0x0400000000#39 0x7F00000000#39 (fun _ _ => .rdTxnRcnt) ∧
  Selects 0x0500000000#39 0x7F00000000#39 (fun _ _ => .rdTxnFlags) ∧
  Selects 0x0700000000#39 0x7F00000000#39 (fun _ _ => .rdEScratch) ∧
  Selects 0x0800000000#39 0x7F00000000#39 (fun _ _ => .rdSHum) ∧
  Selects 0x0900000000#39 0x7F00000000#39 (fun _ _ => .rdSTemp) ∧
  Selects 0x0A00000000#39 0x7F00000000#39 (fun _ _ => .rdSTs) ∧
  Selects 0x0B00000000#39 0x7F00000000#39 (fun _ _ => .rdParams) ∧
  ∀ s : State,
    exec .rdTxnAddr s = .next { s with results := s.results ++ [s.txn.addr.setWidth 32] } ∧
    exec .rdTxnWcnt s = .next { s with results := s.results ++ [s.txn.wcnt.setWidth 32] } ∧
    exec .rdTxnRcnt s = .next { s with results := s.results ++ [s.txn.rcnt.setWidth 32] } ∧
    exec .rdTxnFlags s = .next { s with results := s.results ++ [if s.txn.rs = true then 1#32 else 0#32] } ∧
    exec .rdEScratch s = .next { s with results := s.results ++ [s.eng.scratch.setWidth 32] } ∧
    exec .rdSHum s = .next { s with results := s.results ++ [s.seq.hum] } ∧
    exec .rdSTemp s = .next { s with results := s.results ++ [s.seq.temp] } ∧
    exec .rdSTs s = .next { s with results := s.results ++ [s.seq.ts] } ∧
    ∃ v : Word, exec .rdParams s = .next { s with results := s.results ++ [v] } ∧
      (v.extractLsb' 0 8).toNat = s.cfg.wmax ∧ (v.extractLsb' 8 8).toNat = s.cfg.rmax ∧
      v.extractLsb' 16 7 = s.cfg.sensorAddr ∧ v.extractLsb' 23 9 = 0#9 ∧
      (s.cfg = Params.reference → v = 0x00381010#32)

/-- A read of index 1 decodes to RD.STATUS, which returns a word holding e_phase, e_busy, e_owner, e_armed, e_wait,
s_state, s_err, s_new, s_valid, s_cpl_pend, s_cpl_ok, viol, scl_o and sda_o at the bits of R52, 0 elsewhere, and
changes nothing else; after reset it is 0x00300000. -/
def Obligations.StatusReadShowsTheState : Prop :=
  Selects 0x0100000000#39 0x7F00000000#39 (fun _ _ => .rdStatus) ∧
  ∀ s : State, ∃ v : Word, exec .rdStatus s = .next { s with results := s.results ++ [v] } ∧
    v.extractLsb' 0 3 = s.eng.phase.code ∧ v.getLsbD 3 = s.eng.busy ∧ v.getLsbD 4 = s.eng.owner.code ∧
    v.getLsbD 5 = s.eng.armed ∧ v.getLsbD 6 = s.eng.wait ∧ v.getLsbD 7 = false ∧
    v.extractLsb' 8 4 = s.seq.state.code ∧ v.extractLsb' 12 3 = s.seq.err.code ∧ v.getLsbD 15 = s.seq.isNew ∧
    v.getLsbD 16 = s.seq.valid ∧ v.getLsbD 17 = s.seq.cplPend ∧ v.getLsbD 18 = s.seq.cplOk ∧
    v.getLsbD 19 = s.viol ∧ v.getLsbD 20 = s.lines.scl ∧ v.getLsbD 21 = s.lines.sda ∧
    v.extractLsb' 22 10 = 0#10 ∧
    (∀ p : Params, s = State.resetWith p → v = 0x00300000#32)

/-- A read of index 6 decodes to RD.E_POS, which returns a word holding e_byte, e_bit, e_half, e_rs, e_dir, e_nack,
e_fail and e_next at their bits, 0 above, and changes nothing else. -/
def Obligations.PositionReadShowsTheEngine : Prop :=
  Selects 0x0600000000#39 0x7F00000000#39 (fun _ _ => .rdEPos) ∧
  ∀ s : State, ∃ v : Word, exec .rdEPos s = .next { s with results := s.results ++ [v] } ∧
    v.extractLsb' 0 8 = s.eng.byte ∧ v.extractLsb' 8 4 = s.eng.bit ∧ v.getLsbD 12 = s.eng.half ∧
    v.getLsbD 13 = s.eng.rs ∧ v.getLsbD 14 = s.eng.dir ∧ v.getLsbD 15 = s.eng.nack ∧
    v.getLsbD 16 = s.eng.fail ∧ v.getLsbD 17 = s.eng.next ∧ v.extractLsb' 18 14 = 0#14

/-- A read of indices 16..31 decodes to RD.WBUF (RD.UNMAPPED past WMAX), of 32..47 to RD.RBUF (RD.UNMAPPED past RMAX).
RD.WBUF i returns wbuf[i], RD.RBUF i returns rbuf[i], zero-extended, and 0 past the buffer (for RD.RBUF this is
R323); nothing else changes. -/
def Obligations.BufferReads : Prop :=
  Selects 0x1000000000#39 0x7000000000#39
    (fun p w => if (bufOf w).toNat < p.wmax then .rdWbuf (bufOf w) else .rdUnmapped (idxOf w)) ∧
  Selects 0x2000000000#39 0x7000000000#39
    (fun p w => if (bufOf w).toNat < p.rmax then .rdRbuf (bufOf w) else .rdUnmapped (idxOf w)) ∧
  ∀ (s : State) (i : BitVec 4),
    exec (.rdWbuf i) s = .next { s with
      results := s.results ++ [if i.toNat < s.cfg.wmax then (s.wbuf.read i.toNat).setWidth 32 else 0#32] } ∧
    exec (.rdRbuf i) s = .next { s with
      results := s.results ++ [if i.toNat < s.cfg.rmax then (s.rbuf.read i.toNat).setWidth 32 else 0#32] }

/-- RD.CMD and RD.UNMAPPED return 0; WR.RO and WR.UNMAPPED change nothing. By word index: a read of an unmapped index or
of CMD returns 0, whatever its data; a write to an unmapped index or to a read-only register changes nothing. A
read's data field is ignored. Every HOSTOP word is an operation that answers a next state. -/
def Obligations.InertAccesses : Prop :=
  (∀ (s : State) (idx : Idx),
    exec .rdCmd s = .next { s with results := s.results ++ [0#32] } ∧
    exec (.rdUnmapped idx) s = .next { s with results := s.results ++ [0#32] } ∧
    exec (.wrRo idx) s = .next s ∧ exec (.wrUnmapped idx) s = .next s) ∧
  (∀ (s : State) (idx : Idx) (data : Word),
    (unmappedIdx s.cfg idx = true ∨ idx = 0#6 →
      exec (decodeHostOp s.cfg (hostWord false idx data)) s =
        .next { s with results := s.results ++ [0#32] }) ∧
    (unmappedIdx s.cfg idx = true ∨ readOnlyIdx s.cfg idx = true →
      exec (decodeHostOp s.cfg (hostWord true idx data)) s = .next s)) ∧
  (∀ (p : Params) (idx : Idx) (data : Word),
    decodeHostOp p (hostWord false idx data) = decodeHostOp p (hostWord false idx 0#32)) ∧
  (∀ (s : State) (p : Params) (w : BitVec 39), ∃ t, exec (decodeHostOp p w) s = .next t)

/-- Each word decodes to its write with the word's data; TXN_ADDR takes data[6:0], TXN_WCNT and TXN_RCNT data[7:0],
TXN_FLAGS data[0]; every other field, the latches of a transaction in flight included, is unchanged. A read of the
register in the state the write leaves returns the slice, zero-extended. -/
def Obligations.DescriptorWrites : Prop :=
  Selects 0x4200000000#39 0x7F00000000#39 (fun _ w => .wrTxnAddr (dataOf w)) ∧
  Selects 0x4300000000#39 0x7F00000000#39 (fun _ w => .wrTxnWcnt (dataOf w)) ∧
  Selects 0x4400000000#39 0x7F00000000#39 (fun _ w => .wrTxnRcnt (dataOf w)) ∧
  Selects 0x4500000000#39 0x7F00000000#39 (fun _ w => .wrTxnFlags (dataOf w)) ∧
  ∀ (s : State) (data : Word),
    exec (.wrTxnAddr data) s = .next { s with txn := { s.txn with addr := data.extractLsb' 0 7 } } ∧
    exec (.wrTxnWcnt data) s = .next { s with txn := { s.txn with wcnt := data.extractLsb' 0 8 } } ∧
    exec (.wrTxnRcnt data) s = .next { s with txn := { s.txn with rcnt := data.extractLsb' 0 8 } } ∧
    exec (.wrTxnFlags data) s = .next { s with txn := { s.txn with rs := data.getLsbD 0 } } ∧
    (∀ t, exec (.wrTxnAddr data) s = .next t →
      exec .rdTxnAddr t = .next { t with results := t.results ++ [(data.extractLsb' 0 7).setWidth 32] }) ∧
    (∀ t, exec (.wrTxnWcnt data) s = .next t →
      exec .rdTxnWcnt t = .next { t with results := t.results ++ [(data.extractLsb' 0 8).setWidth 32] }) ∧
    (∀ t, exec (.wrTxnRcnt data) s = .next t →
      exec .rdTxnRcnt t = .next { t with results := t.results ++ [(data.extractLsb' 0 8).setWidth 32] }) ∧
    (∀ t, exec (.wrTxnFlags data) s = .next t →
      exec .rdTxnFlags t = .next { t with results := t.results ++ [if data.getLsbD 0 = true then 1#32 else 0#32] })

/-- A write of indices 16..31 decodes to WR.WBUF (WR.UNMAPPED past WMAX). For i < WMAX afterwards wbuf[i] reads
data[7:0] and every other byte reads as before; for i >= WMAX nothing changes. Everything but wbuf is unchanged. -/
def Obligations.WriteBufferWrite : Prop :=
  Selects 0x5000000000#39 0x7000000000#39
    (fun p w => if (bufOf w).toNat < p.wmax then .wrWbuf (bufOf w) (dataOf w) else .wrUnmapped (idxOf w)) ∧
  ∀ (s : State) (i : BitVec 4) (data : Word),
    (i.toNat < s.cfg.wmax →
      ∃ m : Memory, exec (.wrWbuf i data) s = .next { s with wbuf := m } ∧
        ∀ a, m.read a = if a = i.toNat then data.extractLsb' 0 8 else s.wbuf.read a) ∧
    (s.cfg.wmax ≤ i.toNat → exec (.wrWbuf i data) s = .next s)

/-- Every HOSTOP word with we = 0 returns a value and changes nothing else, and doing it again returns the same value.
Performing the same write twice to a RW register (TXN_*, WBUF) gives what performing it once gives. A write to CMD
performs its command, each time. -/
def Obligations.ReadsHaveNoSideEffect : Prop :=
  (∀ (s : State) (w : BitVec 39), w.getLsbD 38 = false →
    ∃ v, exec (decodeHostOp s.cfg w) s = .next { s with results := s.results ++ [v] } ∧
      exec (decodeHostOp s.cfg w) { s with results := s.results ++ [v] } =
        .next { s with results := s.results ++ [v] ++ [v] }) ∧
  (∀ (s t : State) (i : Instr) (data : Word) (j : BitVec 4),
    i = .wrTxnAddr data ∨ i = .wrTxnWcnt data ∨ i = .wrTxnRcnt data ∨ i = .wrTxnFlags data ∨ i = .wrWbuf j data →
    exec i s = .next t → exec i t = .next t) ∧
  (∀ (p : Params) (w : BitVec 39), w &&& 0x7F00000000#39 = 0x4000000000#39 →
    decodeHostOp p w = .cmdNop ∨ decodeHostOp p w = .cmdEngBegin ∨ decodeHostOp p w = .cmdSeqInit ∨
      decodeHostOp p w = .cmdSeqRequestRead ∨ ∃ op, decodeHostOp p w = .cmdReserved op)

/-- In two states that differ only in the transaction latches, every HOSTOP read returns the same value. -/
def Obligations.LatchesCannotBeRead : Prop :=
  ∀ (s : State) (l : Txn) (w : BitVec 39), w.getLsbD 38 = false →
    ∃ v, exec (decodeHostOp s.cfg w) s = .next { s with results := s.results ++ [v] } ∧
      exec (decodeHostOp s.cfg w) { s with latch := l } =
        .next { s with latch := l, results := s.results ++ [v] }

/-- If a step changes the latches, it is a RESET, or a HOST or DISPATCH step with the engine not busy whose BEGIN starts
the latched transaction. While the engine is busy a HOST or DISPATCH step leaves the engine, the latches, the lines
and the bus history alone. No step changes the parameters. -/
def Obligations.OnlyBeginAndResetWriteTheLatches : Prop :=
  ∀ s t : State, step s = .next t →
    (t.latch = s.latch ∨ s.pins.ev = 4#3 ∨
      (s.eng.busy = false ∧ (s.pins.ev = 0#3 ∨ s.pins.ev = 3#3) ∧
        ∃ o, t.eng = (s.begun t.latch o).eng ∧ t.lines = { scl := false, sda := false })) ∧
    (s.eng.busy = true → s.pins.ev = 0#3 ∨ s.pins.ev = 3#3 →
      t.eng = s.eng ∧ t.latch = s.latch ∧ t.lines = s.lines ∧ t.bus = s.bus) ∧
    t.cfg = s.cfg

/-- A step that is not RESET keeps a set viol; a step after which viol is set either found it set or is a HOST step
whose command meets a condition of R343. -/
def Obligations.ViolIsSticky : Prop :=
  ∀ s t : State, step s = .next t →
    (s.viol = true → s.pins.ev ≠ 4#3 → t.viol = true) ∧ (s.pins.ev = 4#3 → t.viol = false) ∧
    (t.viol = true → s.viol = true ∨ (s.pins.ev = 0#3 ∧ s.violates (decodeHostOp s.cfg s.pins.host)))

/-- Each operation that meets one of the six conditions of R343 answers the state with viol set and nothing else
changed. An operation of any other kind, or one that meets no condition, never sets viol (events perform operations
and are covered through them). -/
def Obligations.RefusedCommandChangesOnlyViol : Prop :=
  (∀ (s : State) (i : Instr), s.violates i → exec i s = .next { s with viol := true }) ∧
  (∀ (s t : State) (i : Instr), i ≠ .evHost → ¬s.violates i → exec i s = .next t → t.viol = true → s.viol = true)

/-- A next state's bus history is the old one and at most two more events, and its line outputs are what those events
make of the old ones: no output changes without its event. A HOST or DISPATCH step adds nothing or the two events of
a BEGIN; a RESET adds RST alone. -/
def Obligations.LinesFollowTheBusHistory : Prop :=
  ∀ s t : State, step s = .next t →
    ∃ new : List LineEvent, t.bus = s.bus ++ new ∧ t.lines = new.foldl LineEvent.apply s.lines ∧ new.length ≤ 2 ∧
      (s.pins.ev = 0#3 ∨ s.pins.ev = 3#3 → new = [] ∨ new = [.setSda false, .setScl false]) ∧
      (s.pins.ev = 4#3 → new = [.rst])

/-- A step that is no RESET either keeps all three, or is the DISPATCH of S.READ.OK, after which s_state is IDLE, s_new
and s_valid are 1, s_hum is at most 9999 and s_temp lies in -5000..14999. The ranges hold whatever RAW_LAYOUT is. -/
def Obligations.ReadingChangesOnlyAtReadCompletion : Prop :=
  ∀ s t : State, step s = .next t → s.pins.ev ≠ 4#3 →
    (t.seq.hum = s.seq.hum ∧ t.seq.temp = s.seq.temp ∧ t.seq.ts = s.seq.ts) ∨
    (s.pins.ev = 3#3 ∧ decodeSeqOp s.seqop = some .sReadOk ∧
      t.seq.state = .idle ∧ t.seq.isNew = true ∧ t.seq.valid = true ∧ t.seq.ts = s.pins.now ∧
      t.seq.hum.toNat ≤ 9999 ∧ -5000 ≤ t.seq.temp.toInt ∧ t.seq.temp.toInt ≤ 14999)

/-- In ERROR CMD.SEQ_REQUEST_READ changes nothing, and a step either leaves ERROR by RESET or by a HOST step of
CMD.SEQ_INIT, or stays in ERROR and starts no transaction owned by the sequencer: the owner is as before or HOST,
and only a HOST step of CMD.ENG_BEGIN changes the latches. -/
def Obligations.ErrorIsTerminal : Prop :=
  ∀ s : State, s.seq.state = .error →
    exec .cmdSeqRequestRead s = .next s ∧
    ∀ t : State, step s = .next t →
      s.pins.ev = 4#3 ∨
      (s.pins.ev = 0#3 ∧ decodeHostOp s.cfg s.pins.host = .cmdSeqInit) ∨
      (t.seq.state = .error ∧ (t.eng.owner = s.eng.owner ∨ t.eng.owner = .host) ∧
        (t.latch = s.latch ∨ (s.pins.ev = 0#3 ∧ decodeHostOp s.cfg s.pins.host = .cmdEngBegin)))

/-- For every 20-bit rh: Hum = floor(rh * 625 / 2^16) = floor(rh * 10000 / 2^20), at most 9999; for every rt: Temp =
floor(rt * 625 / 2^15) - 5000 = floor(rt * 20000 / 2^20) - 5000, in -5000..14999, as two's complement. R257's
closing sentence writes 100 where its own formula and example give 10000; the formula is followed
(notes/assumptions/16.md). -/
def Obligations.ConversionIsTheExactFloor : Prop :=
  (∀ rh : Raw, (humWord rh).toNat = rh.toNat * 625 / 2 ^ 16 ∧ (humWord rh).toNat = rh.toNat * 10000 / 2 ^ 20 ∧
    (humWord rh).toNat ≤ 9999) ∧
  (∀ rt : Raw, (tempWord rt).toInt = (rt.toNat * 625 / 2 ^ 15 : Nat) - 5000 ∧
    (tempWord rt).toInt = (rt.toNat * 20000 / 2 ^ 20 : Nat) - 5000 ∧
    -5000 ≤ (tempWord rt).toInt ∧ (tempWord rt).toInt ≤ 14999)

/-- For every 20-bit x the product x * 625 is (x << 9) + (x << 6) + (x << 5) + (x << 4) + x, so Hum and Temp are that
sum shifted; both are monotone; Hum(0x80000) = 5000, Temp(0x80000) = 5000, Hum(0) = 0, Hum(2^20-1) = 9999, Temp(0) =
-5000, Temp(2^20-1) = 14999. -/
def Obligations.ConversionByShiftsIsMonotone : Prop :=
  (∀ x : Raw, x.toNat * 625 = (x.toNat <<< 9) + (x.toNat <<< 6) + (x.toNat <<< 5) + (x.toNat <<< 4) + x.toNat ∧
    (humWord x).toNat =
      ((x.toNat <<< 9) + (x.toNat <<< 6) + (x.toNat <<< 5) + (x.toNat <<< 4) + x.toNat) >>> 16 ∧
    (tempWord x).toInt =
      (((x.toNat <<< 9) + (x.toNat <<< 6) + (x.toNat <<< 5) + (x.toNat <<< 4) + x.toNat) >>> 15 : Nat) - 5000) ∧
  (∀ x y : Raw, x.toNat ≤ y.toNat →
    (humWord x).toNat ≤ (humWord y).toNat ∧ (tempWord x).toInt ≤ (tempWord y).toInt) ∧
  humWord 0x80000#20 = 5000#32 ∧ tempWord 0x80000#20 = 5000#32 ∧
  humWord 0#20 = 0#32 ∧ humWord 0xFFFFF#20 = 9999#32 ∧
  (tempWord 0#20).toInt = -5000 ∧ (tempWord 0xFFFFF#20).toInt = 14999

/-- For all parameters the state after reset meets the engine, walk, line, sequencer, buffer and error invariants;
State.reset is that of the reference parameters. -/
def Obligations.InvariantHoldsAfterReset : Prop :=
  (∀ p : Params, Inv (State.resetWith p)) ∧ Inv State.reset

/-- For every state that meets the invariants R58 (engine), R59 (sequencer), the walk and line facts of R150 and R162 to
R175, the buffers' canonical form and R47, a step that takes a next state takes one that meets them, whatever agent
acts and whatever the peer does. -/
def Obligations.StepKeepsTheInvariant : Prop :=
  ∀ s t : State, Inv s → step s = .next t → Inv t

/-- In every state that meets the invariants, a step on any input takes a next state, or is refused because the event is
not enabled, or because the EV code names none: no fault, so the internal invariant violations of R341 are not
reached. That an event without a step is refused, and by which name, is the model's choice (notes/assumptions/6.md).
-/
def Obligations.InvariantStatesNeverFault : Prop :=
  ∀ s : State, Inv s →
    (∃ t, step s = .next t) ∨ (∃ m, step s = .refused (.eventNotEnabled m)) ∨ step s = .refused .noSuchEvent

/-- From ADDR or WRITE at bit 0, half 0, armed, sixteen TICKs append exactly, for k = 0..7, SDA := e_scratch[7 - k], SCL
:= 1, SCL := 0, and leave the engine at the ACK slot; nothing else changes. -/
def Obligations.TransmittedByteGoesMsbFirst : Prop :=
  ∀ s : State, ErrInv s → s.eng.phase = .addr ∨ s.eng.phase = .write → s.eng.bit = 0#4 → s.eng.half = false →
    s.eng.armed = true → (s.inputs.take 16).map Pins.ev = List.replicate 16 1#3 →
    steps 16 s = .next { s with
      eng := { s.eng with bit := 8#4 }
      lines := { scl := false, sda := s.eng.scratch.getLsbD 0 }
      bus := s.bus ++
        (List.range 8).flatMap (fun k => [.setSda (s.eng.scratch.getLsbD (7 - k)), .setScl true, .setScl false])
      inputs := s.inputs.drop 16
      draws := s.draws + 16 }

/-- From READ at bit 0, half 0, armed and not waiting, with the index in range, eight rounds of TICK, POLL, TICK in
which the peer leaves SCL released and puts bit 7 - k of b on SDA in round k leave e_scratch = b, rbuf[e_byte] = b
and every other byte of rbuf as before, the engine at the master's ACK slot; nothing else but the lines and the bus
history changes. -/
def Obligations.ReceivedByteIsAssembledMsbFirst : Prop :=
  ∀ (s : State) (b : Byte), ErrInv s → s.eng.phase = .read → s.eng.bit = 0#4 → s.eng.half = false →
    s.eng.armed = true → s.eng.wait = false → s.eng.byte.toNat < s.cfg.rmax →
    (s.inputs.take 24).map Pins.ev = (List.replicate 8 [1#3, 2#3, 1#3]).flatten →
    (∀ k < 8, ∀ p, s.inputs[3 * k + 1]? = some p → p.scl = true ∧ p.sda = b.getLsbD (7 - k)) →
    ∃ m : Memory,
      steps 24 s = .next { s with
        eng := { s.eng with bit := 8#4, scratch := b }
        lines := { scl := false, sda := true }
        rbuf := m
        bus := s.bus ++ (List.range 8).flatMap (fun k =>
          [.setSda true, .setScl true, .readScl true, .readSda (b.getLsbD (7 - k)), .setScl false])
        inputs := s.inputs.drop 24
        draws := s.draws + 24 } ∧
      ∀ a, m.read a = if a = s.eng.byte.toNat then b else s.rbuf.read a

/-- From ADDR or WRITE at the ACK slot's second half with e_nack = 1, armed, three TICKs append exactly SCL := 0, SDA :=
0, SCL := 1, SDA := 1 and leave the engine FAILED with e_fail = 1, not armed, lines released, e_byte and rbuf as
before; a sequencer-owned transaction leaves s_cpl_pend = 1 and s_cpl_ok = 0, a host-owned one leaves the sequencer
alone. -/
def Obligations.NackStopsAndFails : Prop :=
  ∀ s : State, ErrInv s → s.eng.phase = .addr ∨ s.eng.phase = .write → s.eng.bit = 8#4 → s.eng.half = true →
    s.eng.nack = true → s.eng.armed = true → (s.inputs.take 3).map Pins.ev = List.replicate 3 1#3 →
    steps 3 s = .next { s with
      eng := { s.eng with
        phase := .failed, bit := 0#4, half := false, fail := true, next := false, armed := false }
      lines := { scl := true, sda := true }
      bus := s.bus ++ [.setScl false, .setSda false, .setScl true, .setSda true]
      seq := if s.eng.owner = .seq then { s.seq with cplPend := true, cplOk := false } else s.seq
      inputs := s.inputs.drop 3
      draws := s.draws + 3 }

/-- From WRITE at the ACK slot's second half, ACK sampled, last byte, e_rcnt > 0, armed. With e_rsflag = 1 three TICKs
append exactly SCL := 0, SDA := 1, SCL := 1, SDA := 0, SCL := 0. With e_rsflag = 0 four TICKs append SCL := 0, SDA
:= 0, SCL := 1, SDA := 1, SDA := 0, SCL := 0. Both end in ADDR with the same address and the read bit set. -/
def Obligations.ReadPhaseFollowsTheWritePhase : Prop :=
  ∀ s : State, ErrInv s → s.eng.phase = .write → s.eng.bit = 8#4 → s.eng.half = true → s.eng.nack = false →
    s.eng.fail = false → s.eng.rs = false → s.eng.next = false → s.eng.armed = true →
    s.latch.wcnt.toNat ≤ s.eng.byte.toNat + 1 → s.latch.rcnt ≠ 0#8 →
    (s.latch.rs = true → (s.inputs.take 3).map Pins.ev = List.replicate 3 1#3 →
      steps 3 s = .next { s with
        eng := { s.eng with
          phase := .addr, bit := 0#4, half := false, dir := true, byte := s.eng.byte + 1#8
          scratch := s.latch.addr ++ 1#1 }
        lines := { scl := false, sda := false }
        bus := s.bus ++ [.setScl false, .setSda true, .setScl true, .setSda false, .setScl false]
        inputs := s.inputs.drop 3
        draws := s.draws + 3 }) ∧
    (s.latch.rs = false → (s.inputs.take 4).map Pins.ev = List.replicate 4 1#3 →
      steps 4 s = .next { s with
        eng := { s.eng with
          phase := .addr, bit := 0#4, half := false, dir := true, byte := s.eng.byte + 1#8
          scratch := s.latch.addr ++ 1#1 }
        lines := { scl := false, sda := false }
        bus := s.bus ++ [.setScl false, .setSda false, .setScl true, .setSda true, .setSda false, .setScl false]
        inputs := s.inputs.drop 4
        draws := s.draws + 4 })

/-- For every n: from a waiting state that meets the invariant, n POLLs in which the peer holds SCL low leave every
field of the block as it was; the bus history has n more events SCL?=0. -/
def Obligations.StretchedHoldHasNoTimeout : Prop :=
  ∀ (n : Nat) (s : State), Inv s → s.eng.wait = true →
    (s.inputs.take n).map (fun p => (p.ev, p.scl)) = List.replicate n (2#3, false) →
    steps n s = .next { s with
      bus := s.bus ++ List.replicate n (.readScl false)
      inputs := s.inputs.drop n
      draws := s.draws + n }

end Claims
end

