-- ==== Sys2Proof/Laws/State.lean ====
section
/-! SUPPORT. What each named update of the state does to each field: one lemma per field per update, so that no proof
unfolds a record update. -/

namespace Sys2Proof.Machine

/-! ### `State.emit` -/

@[simp] theorem State.emit_cfg (s : State) (e : LineEvent) : (s.emit e).cfg = s.cfg := rfl
@[simp] theorem State.emit_eng (s : State) (e : LineEvent) : (s.emit e).eng = s.eng := rfl
@[simp] theorem State.emit_latch (s : State) (e : LineEvent) : (s.emit e).latch = s.latch := rfl
@[simp] theorem State.emit_lines (s : State) (e : LineEvent) : (s.emit e).lines = s.lines := rfl
@[simp] theorem State.emit_txn (s : State) (e : LineEvent) : (s.emit e).txn = s.txn := rfl
@[simp] theorem State.emit_wbuf (s : State) (e : LineEvent) : (s.emit e).wbuf = s.wbuf := rfl
@[simp] theorem State.emit_rbuf (s : State) (e : LineEvent) : (s.emit e).rbuf = s.rbuf := rfl
@[simp] theorem State.emit_viol (s : State) (e : LineEvent) : (s.emit e).viol = s.viol := rfl
@[simp] theorem State.emit_seq (s : State) (e : LineEvent) : (s.emit e).seq = s.seq := rfl
@[simp] theorem State.emit_inputs (s : State) (e : LineEvent) : (s.emit e).inputs = s.inputs := rfl
@[simp] theorem State.emit_draws (s : State) (e : LineEvent) : (s.emit e).draws = s.draws := rfl
@[simp] theorem State.emit_bus (s : State) (e : LineEvent) : (s.emit e).bus = s.bus ++ [e] := rfl
@[simp] theorem State.emit_results (s : State) (e : LineEvent) : (s.emit e).results = s.results := rfl

/-! ### `State.setData` -/

@[simp] theorem State.setData_cfg (s : State) (l : Bool) : (s.setData l).cfg = s.cfg := rfl
@[simp] theorem State.setData_eng (s : State) (l : Bool) : (s.setData l).eng = s.eng := rfl
@[simp] theorem State.setData_latch (s : State) (l : Bool) : (s.setData l).latch = s.latch := rfl
@[simp] theorem State.setData_lines (s : State) (l : Bool) : (s.setData l).lines = { s.lines with sda := l } := rfl
@[simp] theorem State.setData_txn (s : State) (l : Bool) : (s.setData l).txn = s.txn := rfl
@[simp] theorem State.setData_wbuf (s : State) (l : Bool) : (s.setData l).wbuf = s.wbuf := rfl
@[simp] theorem State.setData_rbuf (s : State) (l : Bool) : (s.setData l).rbuf = s.rbuf := rfl
@[simp] theorem State.setData_viol (s : State) (l : Bool) : (s.setData l).viol = s.viol := rfl
@[simp] theorem State.setData_seq (s : State) (l : Bool) : (s.setData l).seq = s.seq := rfl
@[simp] theorem State.setData_inputs (s : State) (l : Bool) : (s.setData l).inputs = s.inputs := rfl
@[simp] theorem State.setData_draws (s : State) (l : Bool) : (s.setData l).draws = s.draws := rfl
@[simp] theorem State.setData_bus (s : State) (l : Bool) : (s.setData l).bus = s.bus ++ [.setSda l] := rfl
@[simp] theorem State.setData_results (s : State) (l : Bool) : (s.setData l).results = s.results := rfl

/-! ### `State.setClock` -/

@[simp] theorem State.setClock_cfg (s : State) (l : Bool) : (s.setClock l).cfg = s.cfg := rfl
@[simp] theorem State.setClock_eng (s : State) (l : Bool) : (s.setClock l).eng = s.eng := rfl
@[simp] theorem State.setClock_latch (s : State) (l : Bool) : (s.setClock l).latch = s.latch := rfl
@[simp] theorem State.setClock_lines (s : State) (l : Bool) : (s.setClock l).lines = { s.lines with scl := l } := rfl
@[simp] theorem State.setClock_txn (s : State) (l : Bool) : (s.setClock l).txn = s.txn := rfl
@[simp] theorem State.setClock_wbuf (s : State) (l : Bool) : (s.setClock l).wbuf = s.wbuf := rfl
@[simp] theorem State.setClock_rbuf (s : State) (l : Bool) : (s.setClock l).rbuf = s.rbuf := rfl
@[simp] theorem State.setClock_viol (s : State) (l : Bool) : (s.setClock l).viol = s.viol := rfl
@[simp] theorem State.setClock_seq (s : State) (l : Bool) : (s.setClock l).seq = s.seq := rfl
@[simp] theorem State.setClock_inputs (s : State) (l : Bool) : (s.setClock l).inputs = s.inputs := rfl
@[simp] theorem State.setClock_draws (s : State) (l : Bool) : (s.setClock l).draws = s.draws := rfl
@[simp] theorem State.setClock_bus (s : State) (l : Bool) : (s.setClock l).bus = s.bus ++ [.setScl l] := rfl
@[simp] theorem State.setClock_results (s : State) (l : Bool) : (s.setClock l).results = s.results := rfl

/-! ### `State.arm` -/

@[simp] theorem State.arm_cfg (s : State) : s.arm.cfg = s.cfg := rfl
@[simp] theorem State.arm_eng (s : State) : s.arm.eng = { s.eng with armed := true } := rfl
@[simp] theorem State.arm_latch (s : State) : s.arm.latch = s.latch := rfl
@[simp] theorem State.arm_lines (s : State) : s.arm.lines = s.lines := rfl
@[simp] theorem State.arm_txn (s : State) : s.arm.txn = s.txn := rfl
@[simp] theorem State.arm_wbuf (s : State) : s.arm.wbuf = s.wbuf := rfl
@[simp] theorem State.arm_rbuf (s : State) : s.arm.rbuf = s.rbuf := rfl
@[simp] theorem State.arm_viol (s : State) : s.arm.viol = s.viol := rfl
@[simp] theorem State.arm_seq (s : State) : s.arm.seq = s.seq := rfl
@[simp] theorem State.arm_inputs (s : State) : s.arm.inputs = s.inputs := rfl
@[simp] theorem State.arm_draws (s : State) : s.arm.draws = s.draws := rfl
@[simp] theorem State.arm_bus (s : State) : s.arm.bus = s.bus := rfl
@[simp] theorem State.arm_results (s : State) : s.arm.results = s.results := rfl

/-! ### `State.raiseViol` -/

@[simp] theorem State.raiseViol_cfg (s : State) (c : ViolCause) : (s.raiseViol c).cfg = s.cfg := rfl
@[simp] theorem State.raiseViol_eng (s : State) (c : ViolCause) : (s.raiseViol c).eng = s.eng := rfl
@[simp] theorem State.raiseViol_latch (s : State) (c : ViolCause) : (s.raiseViol c).latch = s.latch := rfl
@[simp] theorem State.raiseViol_lines (s : State) (c : ViolCause) : (s.raiseViol c).lines = s.lines := rfl
@[simp] theorem State.raiseViol_txn (s : State) (c : ViolCause) : (s.raiseViol c).txn = s.txn := rfl
@[simp] theorem State.raiseViol_wbuf (s : State) (c : ViolCause) : (s.raiseViol c).wbuf = s.wbuf := rfl
@[simp] theorem State.raiseViol_rbuf (s : State) (c : ViolCause) : (s.raiseViol c).rbuf = s.rbuf := rfl
@[simp] theorem State.raiseViol_viol (s : State) (c : ViolCause) : (s.raiseViol c).viol = true := rfl
@[simp] theorem State.raiseViol_seq (s : State) (c : ViolCause) : (s.raiseViol c).seq = s.seq := rfl
@[simp] theorem State.raiseViol_inputs (s : State) (c : ViolCause) : (s.raiseViol c).inputs = s.inputs := rfl
@[simp] theorem State.raiseViol_draws (s : State) (c : ViolCause) : (s.raiseViol c).draws = s.draws := rfl
@[simp] theorem State.raiseViol_bus (s : State) (c : ViolCause) : (s.raiseViol c).bus = s.bus := rfl
@[simp] theorem State.raiseViol_results (s : State) (c : ViolCause) : (s.raiseViol c).results = s.results := rfl

/-! ### `State.hostReturn` -/

@[simp] theorem State.hostReturn_cfg (s : State) (v : Word) : (s.hostReturn v).cfg = s.cfg := rfl
@[simp] theorem State.hostReturn_eng (s : State) (v : Word) : (s.hostReturn v).eng = s.eng := rfl
@[simp] theorem State.hostReturn_latch (s : State) (v : Word) : (s.hostReturn v).latch = s.latch := rfl
@[simp] theorem State.hostReturn_lines (s : State) (v : Word) : (s.hostReturn v).lines = s.lines := rfl
@[simp] theorem State.hostReturn_txn (s : State) (v : Word) : (s.hostReturn v).txn = s.txn := rfl
@[simp] theorem State.hostReturn_wbuf (s : State) (v : Word) : (s.hostReturn v).wbuf = s.wbuf := rfl
@[simp] theorem State.hostReturn_rbuf (s : State) (v : Word) : (s.hostReturn v).rbuf = s.rbuf := rfl
@[simp] theorem State.hostReturn_viol (s : State) (v : Word) : (s.hostReturn v).viol = s.viol := rfl
@[simp] theorem State.hostReturn_seq (s : State) (v : Word) : (s.hostReturn v).seq = s.seq := rfl
@[simp] theorem State.hostReturn_inputs (s : State) (v : Word) : (s.hostReturn v).inputs = s.inputs := rfl
@[simp] theorem State.hostReturn_draws (s : State) (v : Word) : (s.hostReturn v).draws = s.draws := rfl
@[simp] theorem State.hostReturn_bus (s : State) (v : Word) : (s.hostReturn v).bus = s.bus := rfl
@[simp] theorem State.hostReturn_results (s : State) (v : Word) : (s.hostReturn v).results = s.results ++ [v] := rfl

/-! ### `State.seqFault` -/

@[simp] theorem State.seqFault_cfg (s : State) (k : ErrKind) : (s.seqFault k).cfg = s.cfg := rfl
@[simp] theorem State.seqFault_eng (s : State) (k : ErrKind) : (s.seqFault k).eng = s.eng := rfl
@[simp] theorem State.seqFault_latch (s : State) (k : ErrKind) : (s.seqFault k).latch = s.latch := rfl
@[simp] theorem State.seqFault_lines (s : State) (k : ErrKind) : (s.seqFault k).lines = s.lines := rfl
@[simp] theorem State.seqFault_txn (s : State) (k : ErrKind) : (s.seqFault k).txn = s.txn := rfl
@[simp] theorem State.seqFault_wbuf (s : State) (k : ErrKind) : (s.seqFault k).wbuf = s.wbuf := rfl
@[simp] theorem State.seqFault_rbuf (s : State) (k : ErrKind) : (s.seqFault k).rbuf = s.rbuf := rfl
@[simp] theorem State.seqFault_viol (s : State) (k : ErrKind) : (s.seqFault k).viol = s.viol := rfl
@[simp] theorem State.seqFault_seq (s : State) (k : ErrKind) :
    (s.seqFault k).seq = { s.seq with err := k, state := .error } := rfl
@[simp] theorem State.seqFault_inputs (s : State) (k : ErrKind) : (s.seqFault k).inputs = s.inputs := rfl
@[simp] theorem State.seqFault_draws (s : State) (k : ErrKind) : (s.seqFault k).draws = s.draws := rfl
@[simp] theorem State.seqFault_bus (s : State) (k : ErrKind) : (s.seqFault k).bus = s.bus := rfl
@[simp] theorem State.seqFault_results (s : State) (k : ErrKind) : (s.seqFault k).results = s.results := rfl

/-! ### `State.startCondition` -/

@[simp] theorem State.startCondition_cfg (s : State) : s.startCondition.cfg = s.cfg := rfl
@[simp] theorem State.startCondition_eng (s : State) :
    s.startCondition.eng = { s.eng with
      scratch := addressByte s.latch.addr s.eng.dir, phase := .addr, bit := 0#4, half := false, armed := true } := rfl
@[simp] theorem State.startCondition_latch (s : State) : s.startCondition.latch = s.latch := rfl
@[simp] theorem State.startCondition_lines (s : State) : s.startCondition.lines = { scl := false, sda := false } := rfl
@[simp] theorem State.startCondition_txn (s : State) : s.startCondition.txn = s.txn := rfl
@[simp] theorem State.startCondition_wbuf (s : State) : s.startCondition.wbuf = s.wbuf := rfl
@[simp] theorem State.startCondition_rbuf (s : State) : s.startCondition.rbuf = s.rbuf := rfl
@[simp] theorem State.startCondition_viol (s : State) : s.startCondition.viol = s.viol := rfl
@[simp] theorem State.startCondition_seq (s : State) : s.startCondition.seq = s.seq := rfl
@[simp] theorem State.startCondition_inputs (s : State) : s.startCondition.inputs = s.inputs := rfl
@[simp] theorem State.startCondition_draws (s : State) : s.startCondition.draws = s.draws := rfl
@[simp] theorem State.startCondition_bus (s : State) :
    s.startCondition.bus = s.bus ++ [.setSda false, .setScl false] := by simp [startCondition]
@[simp] theorem State.startCondition_results (s : State) : s.startCondition.results = s.results := rfl

/-! ### `State.advance` -/

@[simp] theorem State.advance_cfg (s : State) : s.advance.cfg = s.cfg := rfl
@[simp] theorem State.advance_eng (s : State) : s.advance.eng = s.eng := rfl
@[simp] theorem State.advance_latch (s : State) : s.advance.latch = s.latch := rfl
@[simp] theorem State.advance_lines (s : State) : s.advance.lines = s.lines := rfl
@[simp] theorem State.advance_txn (s : State) : s.advance.txn = s.txn := rfl
@[simp] theorem State.advance_wbuf (s : State) : s.advance.wbuf = s.wbuf := rfl
@[simp] theorem State.advance_rbuf (s : State) : s.advance.rbuf = s.rbuf := rfl
@[simp] theorem State.advance_viol (s : State) : s.advance.viol = s.viol := rfl
@[simp] theorem State.advance_seq (s : State) : s.advance.seq = s.seq := rfl
@[simp] theorem State.advance_inputs (s : State) : s.advance.inputs = s.inputs.tail := rfl
@[simp] theorem State.advance_draws (s : State) : s.advance.draws = s.draws + 1 := rfl
@[simp] theorem State.advance_bus (s : State) : s.advance.bus = s.bus := rfl
@[simp] theorem State.advance_results (s : State) : s.advance.results = s.results := rfl

/-! ### `State.disarm` -/

@[simp] theorem State.disarm_cfg (s : State) : s.disarm.cfg = s.cfg := rfl
@[simp] theorem State.disarm_eng (s : State) : s.disarm.eng = { s.eng with armed := false } := rfl
@[simp] theorem State.disarm_latch (s : State) : s.disarm.latch = s.latch := rfl
@[simp] theorem State.disarm_lines (s : State) : s.disarm.lines = s.lines := rfl
@[simp] theorem State.disarm_txn (s : State) : s.disarm.txn = s.txn := rfl
@[simp] theorem State.disarm_wbuf (s : State) : s.disarm.wbuf = s.wbuf := rfl
@[simp] theorem State.disarm_rbuf (s : State) : s.disarm.rbuf = s.rbuf := rfl
@[simp] theorem State.disarm_viol (s : State) : s.disarm.viol = s.viol := rfl
@[simp] theorem State.disarm_seq (s : State) : s.disarm.seq = s.seq := rfl
@[simp] theorem State.disarm_inputs (s : State) : s.disarm.inputs = s.inputs := rfl
@[simp] theorem State.disarm_draws (s : State) : s.disarm.draws = s.draws := rfl
@[simp] theorem State.disarm_bus (s : State) : s.disarm.bus = s.bus := rfl
@[simp] theorem State.disarm_results (s : State) : s.disarm.results = s.results := rfl

/-! ### `State.consumeCompletion` -/

@[simp] theorem State.consumeCompletion_cfg (s : State) : s.consumeCompletion.cfg = s.cfg := rfl
@[simp] theorem State.consumeCompletion_eng (s : State) : s.consumeCompletion.eng = s.eng := rfl
@[simp] theorem State.consumeCompletion_latch (s : State) : s.consumeCompletion.latch = s.latch := rfl
@[simp] theorem State.consumeCompletion_lines (s : State) : s.consumeCompletion.lines = s.lines := rfl
@[simp] theorem State.consumeCompletion_txn (s : State) : s.consumeCompletion.txn = s.txn := rfl
@[simp] theorem State.consumeCompletion_wbuf (s : State) : s.consumeCompletion.wbuf = s.wbuf := rfl
@[simp] theorem State.consumeCompletion_rbuf (s : State) : s.consumeCompletion.rbuf = s.rbuf := rfl
@[simp] theorem State.consumeCompletion_viol (s : State) : s.consumeCompletion.viol = s.viol := rfl
@[simp] theorem State.consumeCompletion_seq (s : State) :
    s.consumeCompletion.seq = { s.seq with cplPend := false } := rfl
@[simp] theorem State.consumeCompletion_inputs (s : State) : s.consumeCompletion.inputs = s.inputs := rfl
@[simp] theorem State.consumeCompletion_draws (s : State) : s.consumeCompletion.draws = s.draws := rfl
@[simp] theorem State.consumeCompletion_bus (s : State) : s.consumeCompletion.bus = s.bus := rfl
@[simp] theorem State.consumeCompletion_results (s : State) : s.consumeCompletion.results = s.results := rfl

/-! ### `State.complete` -/

@[simp] theorem State.complete_eng (s : State) (ok : Bool) :
    (s.complete ok).eng = { s.eng with phase := if ok then .done else .failed } := rfl
@[simp] theorem State.complete_seq (s : State) (ok : Bool) :
    (s.complete ok).seq
      = if s.eng.owner = .seq then { s.seq with cplPend := true, cplOk := ok } else s.seq := by
  cases h : s.eng.owner <;> simp [complete, h]
@[simp] theorem State.complete_cfg (s : State) (ok : Bool) : (s.complete ok).cfg = s.cfg := rfl
@[simp] theorem State.complete_latch (s : State) (ok : Bool) : (s.complete ok).latch = s.latch := rfl
@[simp] theorem State.complete_lines (s : State) (ok : Bool) : (s.complete ok).lines = s.lines := rfl
@[simp] theorem State.complete_txn (s : State) (ok : Bool) : (s.complete ok).txn = s.txn := rfl
@[simp] theorem State.complete_wbuf (s : State) (ok : Bool) : (s.complete ok).wbuf = s.wbuf := rfl
@[simp] theorem State.complete_rbuf (s : State) (ok : Bool) : (s.complete ok).rbuf = s.rbuf := rfl
@[simp] theorem State.complete_viol (s : State) (ok : Bool) : (s.complete ok).viol = s.viol := rfl
@[simp] theorem State.complete_inputs (s : State) (ok : Bool) : (s.complete ok).inputs = s.inputs := rfl
@[simp] theorem State.complete_draws (s : State) (ok : Bool) : (s.complete ok).draws = s.draws := rfl
@[simp] theorem State.complete_bus (s : State) (ok : Bool) : (s.complete ok).bus = s.bus := rfl
@[simp] theorem State.complete_results (s : State) (ok : Bool) : (s.complete ok).results = s.results := rfl

/-! ### What BEGIN and Issue leave alone -/

@[simp] theorem State.engineBegin_cfg (s : State) (t : Txn) (o : Owner) : (s.engineBegin t o).cfg = s.cfg := by
  unfold engineBegin; split <;> rfl
@[simp] theorem State.engineBegin_txn (s : State) (t : Txn) (o : Owner) : (s.engineBegin t o).txn = s.txn := by
  unfold engineBegin; split <;> rfl
@[simp] theorem State.engineBegin_wbuf (s : State) (t : Txn) (o : Owner) : (s.engineBegin t o).wbuf = s.wbuf := by
  unfold engineBegin; split <;> rfl
@[simp] theorem State.engineBegin_rbuf (s : State) (t : Txn) (o : Owner) : (s.engineBegin t o).rbuf = s.rbuf := by
  unfold engineBegin; split <;> rfl
@[simp] theorem State.engineBegin_viol (s : State) (t : Txn) (o : Owner) : (s.engineBegin t o).viol = s.viol := by
  unfold engineBegin; split <;> rfl
@[simp] theorem State.engineBegin_seq (s : State) (t : Txn) (o : Owner) : (s.engineBegin t o).seq = s.seq := by
  unfold engineBegin; split <;> rfl
@[simp] theorem State.engineBegin_inputs (s : State) (t : Txn) (o : Owner) : (s.engineBegin t o).inputs = s.inputs := by
  unfold engineBegin; split <;> rfl
@[simp] theorem State.engineBegin_draws (s : State) (t : Txn) (o : Owner) : (s.engineBegin t o).draws = s.draws := by
  unfold engineBegin; split <;> rfl
@[simp] theorem State.engineBegin_results (s : State) (t : Txn) (o : Owner) : (s.engineBegin t o).results = s.results := by
  unfold engineBegin; split <;> rfl

@[simp] theorem State.issue_cfg (s : State) (k : Issuing) : (s.issue k).cfg = s.cfg :=
  engineBegin_cfg ..
@[simp] theorem State.issue_txn (s : State) (k : Issuing) : (s.issue k).txn = s.txn :=
  engineBegin_txn ..
@[simp] theorem State.issue_wbuf (s : State) (k : Issuing) : (s.issue k).wbuf = s.wbuf :=
  engineBegin_wbuf ..
@[simp] theorem State.issue_rbuf (s : State) (k : Issuing) : (s.issue k).rbuf = s.rbuf :=
  engineBegin_rbuf ..
@[simp] theorem State.issue_viol (s : State) (k : Issuing) : (s.issue k).viol = s.viol :=
  engineBegin_viol ..
@[simp] theorem State.issue_seq (s : State) (k : Issuing) : (s.issue k).seq = s.seq :=
  engineBegin_seq ..
@[simp] theorem State.issue_inputs (s : State) (k : Issuing) : (s.issue k).inputs = s.inputs :=
  engineBegin_inputs ..
@[simp] theorem State.issue_draws (s : State) (k : Issuing) : (s.issue k).draws = s.draws :=
  engineBegin_draws ..
@[simp] theorem State.issue_results (s : State) (k : Issuing) : (s.issue k).results = s.results :=
  engineBegin_results ..

@[simp] theorem State.enter_cfg (s : State) (k : Issuing) : (s.enter k).cfg = s.cfg :=
  issue_cfg ..
@[simp] theorem State.enter_txn (s : State) (k : Issuing) : (s.enter k).txn = s.txn :=
  issue_txn ..
@[simp] theorem State.enter_wbuf (s : State) (k : Issuing) : (s.enter k).wbuf = s.wbuf :=
  issue_wbuf ..
@[simp] theorem State.enter_rbuf (s : State) (k : Issuing) : (s.enter k).rbuf = s.rbuf :=
  issue_rbuf ..
@[simp] theorem State.enter_viol (s : State) (k : Issuing) : (s.enter k).viol = s.viol :=
  issue_viol ..
@[simp] theorem State.enter_seq (s : State) (k : Issuing) : (s.enter k).seq = { s.seq with state := k.toState } :=
  issue_seq ..
@[simp] theorem State.enter_inputs (s : State) (k : Issuing) : (s.enter k).inputs = s.inputs :=
  issue_inputs ..
@[simp] theorem State.enter_draws (s : State) (k : Issuing) : (s.enter k).draws = s.draws :=
  issue_draws ..
@[simp] theorem State.enter_results (s : State) (k : Issuing) : (s.enter k).results = s.results :=
  issue_results ..

/-! ### The inputs of a step -/

theorem State.pins_of_inputs {s t : State} (hi : t.inputs = s.inputs) (hd : t.draws = s.draws) :
    t.pins = s.pins := by simp [pins, hi, hd]

/-- A supplied record is what the step sees. -/
theorem State.pins_cons {s : State} {p : Pins} {ps : List Pins} (h : s.inputs = p :: ps) : s.pins = p := by
  simp [pins, h]

end Sys2Proof.Machine
end

