-- ==== Sys2Proof/Laws/Ops.lean ====
section
/-! SUPPORT. What each shared operation can do, said once: BEGIN, the wrappers of the micro-operations and of the
dispatch operations, the events, the step. -/

namespace Sys2Proof.Machine

/-- R151: with both counts 0 BEGIN does nothing. -/
theorem State.engineBegin_zero {s : State} {t : Txn} (o : Owner) (hw : t.wcnt = 0#8) (hr : t.rcnt = 0#8) :
    s.engineBegin t o = s := by simp [engineBegin, hw, hr]

/-- R150, R163: any other BEGIN latches the transaction and makes the START condition. -/
theorem State.engineBegin_start {s : State} {t : Txn} (o : Owner) (h : t.wcnt ≠ 0#8 ∨ t.rcnt ≠ 0#8) :
    s.engineBegin t o = { s with
      latch := t
      eng := {
        phase := .addr, scratch := addressByte t.addr (decide (t.wcnt = 0#8)), byte := 0#8, bit := 0#4, half := false
        dir := decide (t.wcnt = 0#8), rs := false, nack := false, fail := false, next := false, wait := false
        armed := true, owner := o }
      lines := { scl := false, sda := false }
      bus := s.bus ++ [.setSda false, .setScl false] } := by
  have h' : ¬(t.wcnt = 0#8 ∧ t.rcnt = 0#8) := by
    rintro ⟨hw, hr⟩; rcases h with h | h <;> contradiction
  simp only [engineBegin, if_neg h', startCondition, setData, setClock, emit, arm, List.append_assoc,
    List.cons_append, List.nil_append]

/-- R234, R9: every command-store transaction has a nonzero count. -/
theorem storeTxn_nonzero (p : Params) (n : Nat) (k : Issuing) :
    (storeTxn p n k).wcnt ≠ 0#8 ∨ (storeTxn p n k).rcnt ≠ 0#8 := by
  have hl := p.legal
  simp only [legalParams, Bool.and_eq_true, decide_eq_true_eq] at hl
  have ht : BitVec.ofNat 8 p.trigger.length ≠ 0#8 := by
    intro h; have := congrArg BitVec.toNat h; simp at this; omega
  have hr : BitVec.ofNat 8 p.readLen ≠ 0#8 := by
    intro h; have := congrArg BitVec.toNat h; simp at this; omega
  cases k <;> simp [storeTxn, storeBytes, storeReads, ht, hr]

/-- R235: Issue always starts its transaction. -/
theorem State.issue_eq (s : State) (k : Issuing) :
    s.issue k = { s with
      latch := storeTxn s.cfg s.draws k
      eng := {
        phase := .addr
        scratch := addressByte s.cfg.sensorAddr (decide ((storeTxn s.cfg s.draws k).wcnt = 0#8))
        byte := 0#8, bit := 0#4, half := false
        dir := decide ((storeTxn s.cfg s.draws k).wcnt = 0#8), rs := false, nack := false, fail := false
        next := false, wait := false, armed := true, owner := .seq }
      lines := { scl := false, sda := false }
      bus := s.bus ++ [.setSda false, .setScl false] } :=
  engineBegin_start .seq (storeTxn_nonzero s.cfg s.draws k)

/-- R231: entering an issuing state. -/
theorem State.enter_eq (s : State) (k : Issuing) :
    s.enter k = ({ s with seq := { s.seq with state := k.toState } } : State).issue k := rfl

/-- A micro-operation answers a next state exactly when its row is selected and its work is done. -/
theorem microOp_next {sel : BitVec 10} {i : Instr} {f : State → Option State} {s t : State} :
    microOp sel i f s = .next t ↔ decodeUop sel = some i ∧ f s = some t := by
  unfold microOp
  split
  · next h => cases hf : f s <;> simp [h]
  · next h => simp [h]

/-- A micro-operation is never refused. -/
theorem microOp_not_refused {sel : BitVec 10} {i : Instr} {f : State → Option State} {s : State} {r : Refusal} :
    microOp sel i f s ≠ .refused r := by
  unfold microOp
  split
  · cases f s <;> simp
  · simp

/-- In a state that selects it, a micro-operation with total work answers that work. -/
theorem microOp_selected {sel : BitVec 10} {i : Instr} {f : State → Option State} {s t : State}
    (hs : decodeUop sel = some i) (hf : f s = some t) : microOp sel i f s = .next t :=
  microOp_next.2 ⟨hs, hf⟩

/-- A dispatch operation answers a next state exactly when its row is selected and its work does. -/
theorem seqOp_next {i : Instr} {f : State → Result} {s t : State} :
    seqOp i f s = .next t ↔ decodeSeqOp s.seqop = some i ∧ f s = .next t := by
  unfold seqOp; split <;> simp_all

/-- Issue answers a next state exactly when the engine is not busy. -/
theorem issueStep_next {k : Issuing} {s t : State} :
    issueStep k s = .next t ↔ s.eng.busy = false ∧ t = s.enter k := by
  unfold issueStep; cases s.eng.busy <;> simp [eq_comm]

/-- What a step answers after an operation. -/
theorem afterStep_next {r : Result} {t : State} : afterStep r = .next t ↔ ∃ u, r = .next u ∧ t = u.advance := by
  cases r <;> simp [afterStep, eq_comm]

/-- A step takes a next state only through an event that the inputs name and `exec` performs. -/
theorem step_next {s t : State} (h : step s = .next t) :
    s.reservedHeld = false ∧ ∃ i u, decodeEv s.pins.ev = some i ∧ exec i s = .next u ∧ t = u.advance := by
  unfold step at h
  split at h
  · cases h
  · next hr =>
    split at h
    · next i hi =>
      obtain ⟨u, hu, rfl⟩ := afterStep_next.1 h
      exact ⟨by simpa using hr, i, u, hi, hu, rfl⟩
    · cases h

/-- The five events. -/
theorem decodeEv_cases {w : BitVec 3} {i : Instr} (h : decodeEv w = some i) :
    i = .evHost ∨ i = .evTick ∨ i = .evPoll ∨ i = .evDispatch ∨ i = .evReset := by
  unfold decodeEv at h; split at h <;> simp_all

/-- R160: what a TICK that takes a next state did. -/
theorem execEvTick_next {s t : State} (h : execEvTick s = .next t) :
    s.eng.armed = true ∧ ∃ i, decodeUop s.tickSel = some i ∧ performUop i s.disarm = .next t := by
  unfold execEvTick at h
  split at h
  · next ha =>
    split at h
    · next i hi => exact ⟨ha, i, hi, h⟩
    · cases h
  · cases h

/-- R161: what a POLL that takes a next state did. -/
theorem execEvPoll_next {s t : State} (h : execEvPoll s = .next t) :
    s.eng.wait = true ∧ ∃ i, decodeUop s.uop = some i ∧ performUop i s = .next t := by
  unfold execEvPoll at h
  split at h
  · next ha =>
    split at h
    · next i hi => exact ⟨ha, i, hi, h⟩
    · cases h
  · cases h

/-- R240: what a DISPATCH that takes a next state did. -/
theorem execEvDispatch_next {s t : State} (h : execEvDispatch s = .next t) :
    s.seq.cplPend = true ∧ ∃ i, decodeSeqOp s.seqop = some i ∧ performSeqOp i s.consumeCompletion = .next t := by
  unfold execEvDispatch at h
  split at h
  · next ha =>
    split at h
    · next i hi => exact ⟨ha, i, hi, h⟩
    · cases h
  · cases h

/-- The selectors do not look at the fields the events clear. -/
@[simp] theorem State.disarm_tickSel (s : State) : s.disarm.tickSel = s.tickSel := rfl
@[simp] theorem State.consumeCompletion_seqop (s : State) : s.consumeCompletion.seqop = s.seqop := rfl

end Sys2Proof.Machine
end

