-- ==== Sys2Proof/Laws/Selectors.lean ====
section
/-! SUPPORT. The micro-operation that an engine state selects, by the engine's named fields instead of the selector's
bits; and the dispatch operation that a sequencer state selects. -/

namespace Sys2Proof.Machine

/-- The UOP row of a micro-state, by named fields (R120's table, column by column). -/
def rowOf (w : Bool) (ph : Phase) (rs : Bool) (bit : BitVec 4) (h : Bool) : Option Instr :=
  match ph with
  | .start => if w then none else if rs then some .uStartRs else some .uStart
  | .addr | .write =>
    if bit.toNat < 8 then (if w then none else if h then some .uTxBitH1 else some .uTxBitH0)
    else if bit = 8#4 then
      (if w then (if h then none else some .uTxAckPoll) else if h then some .uTxAckH1 else some .uTxAckH0)
    else none
  | .read =>
    if bit.toNat < 8 then
      (if w then (if h then none else some .uRxBitPoll) else if h then some .uRxBitH1 else some .uRxBitH0)
    else if bit = 8#4 then (if w then none else if h then some .uRxMackH1 else some .uRxMackH0)
    else none
  | .stop => if w then none else if h then some .uStopH1 else some .uStopH0
  | .idle | .done | .failed => none

theorem decodeUop_selector (e : Engine) (w : Bool) :
    decodeUop (e.selector w) = rowOf w e.phase e.rs e.bit e.half := by
  obtain ⟨ph, _, _, bit, h, _, rs, _, _, _, _, _, _⟩ := e
  simp only [Engine.selector]
  cases ph <;> cases rs <;> cases h <;> cases w <;> revert bit <;> decide

/-- R121: the SEQOP row of a sequencer state and a completion value. -/
theorem decodeSeqOp_code (st : SeqState) (ok : Bool) :
    decodeSeqOp (st.code ++ BitVec.ofBool ok) =
      if st.active then
        (if ok then
          (match st with
          | .reset => some .sResetOk
          | .calibrate => some .sCalOk
          | .pollCal => some .sPollcalOk
          | .trigger => some .sTrigOk
          | .pollMeas => some .sPollmeasOk
          | .read => some .sReadOk
          | .off | .idle | .error => none)
        else some .sFail)
      else none := by
  cases st <;> cases ok <;> decide

/-- The slots of `rowOf`: a data bit, the ACK slot, or neither. -/
theorem bit_slots (b : BitVec 4) :
    (b.toNat < 8 ∧ b ≠ 8#4) ∨ (b = 8#4 ∧ ¬b.toNat < 8) ∨ (¬b.toNat < 8 ∧ b ≠ 8#4) := by
  revert b; decide

section Rows
variable (e : Engine)

theorem selects_uStartRs : decodeUop (e.selector false) = some .uStartRs ↔
    e.phase = .start ∧ e.rs = true := by
  rw [decodeUop_selector]
  rcases bit_slots e.bit with h | h | h <;> cases e.phase <;> cases e.rs <;> cases e.half <;>
    simp [rowOf, h]

theorem selects_uStart : decodeUop (e.selector false) = some .uStart ↔
    e.phase = .start ∧ e.rs = false := by
  rw [decodeUop_selector]
  rcases bit_slots e.bit with h | h | h <;> cases e.phase <;> cases e.rs <;> cases e.half <;>
    simp [rowOf, h]

theorem selects_uTxBitH0 : decodeUop (e.selector false) = some .uTxBitH0 ↔
    (e.phase = .addr ∨ e.phase = .write) ∧ e.bit.toNat < 8 ∧ e.half = false := by
  rw [decodeUop_selector]
  rcases bit_slots e.bit with h | h | h <;> cases e.phase <;> cases e.rs <;> cases e.half <;>
    simp [rowOf, h]

theorem selects_uTxBitH1 : decodeUop (e.selector false) = some .uTxBitH1 ↔
    (e.phase = .addr ∨ e.phase = .write) ∧ e.bit.toNat < 8 ∧ e.half = true := by
  rw [decodeUop_selector]
  rcases bit_slots e.bit with h | h | h <;> cases e.phase <;> cases e.rs <;> cases e.half <;>
    simp [rowOf, h]

theorem selects_uTxAckH0 : decodeUop (e.selector false) = some .uTxAckH0 ↔
    (e.phase = .addr ∨ e.phase = .write) ∧ e.bit = 8#4 ∧ e.half = false := by
  rw [decodeUop_selector]
  rcases bit_slots e.bit with h | h | h <;> cases e.phase <;> cases e.rs <;> cases e.half <;>
    simp [rowOf, h]

theorem selects_uTxAckPoll (w : Bool) : decodeUop (e.selector w) = some .uTxAckPoll ↔
    w = true ∧ (e.phase = .addr ∨ e.phase = .write) ∧ e.bit = 8#4 ∧ e.half = false := by
  rw [decodeUop_selector]
  rcases bit_slots e.bit with h | h | h <;> cases e.phase <;> cases e.rs <;> cases e.half <;>
    cases w <;> simp [rowOf, h]

theorem selects_uTxAckH1 : decodeUop (e.selector false) = some .uTxAckH1 ↔
    (e.phase = .addr ∨ e.phase = .write) ∧ e.bit = 8#4 ∧ e.half = true := by
  rw [decodeUop_selector]
  rcases bit_slots e.bit with h | h | h <;> cases e.phase <;> cases e.rs <;> cases e.half <;>
    simp [rowOf, h]

theorem selects_uRxBitH0 : decodeUop (e.selector false) = some .uRxBitH0 ↔
    e.phase = .read ∧ e.bit.toNat < 8 ∧ e.half = false := by
  rw [decodeUop_selector]
  rcases bit_slots e.bit with h | h | h <;> cases e.phase <;> cases e.rs <;> cases e.half <;>
    simp [rowOf, h]

theorem selects_uRxBitPoll (w : Bool) : decodeUop (e.selector w) = some .uRxBitPoll ↔
    w = true ∧ e.phase = .read ∧ e.bit.toNat < 8 ∧ e.half = false := by
  rw [decodeUop_selector]
  rcases bit_slots e.bit with h | h | h <;> cases e.phase <;> cases e.rs <;> cases e.half <;>
    cases w <;> simp [rowOf, h]

theorem selects_uRxBitH1 : decodeUop (e.selector false) = some .uRxBitH1 ↔
    e.phase = .read ∧ e.bit.toNat < 8 ∧ e.half = true := by
  rw [decodeUop_selector]
  rcases bit_slots e.bit with h | h | h <;> cases e.phase <;> cases e.rs <;> cases e.half <;>
    simp [rowOf, h]

theorem selects_uRxMackH0 : decodeUop (e.selector false) = some .uRxMackH0 ↔
    e.phase = .read ∧ e.bit = 8#4 ∧ e.half = false := by
  rw [decodeUop_selector]
  rcases bit_slots e.bit with h | h | h <;> cases e.phase <;> cases e.rs <;> cases e.half <;>
    simp [rowOf, h]

theorem selects_uRxMackH1 : decodeUop (e.selector false) = some .uRxMackH1 ↔
    e.phase = .read ∧ e.bit = 8#4 ∧ e.half = true := by
  rw [decodeUop_selector]
  rcases bit_slots e.bit with h | h | h <;> cases e.phase <;> cases e.rs <;> cases e.half <;>
    simp [rowOf, h]

theorem selects_uStopH0 : decodeUop (e.selector false) = some .uStopH0 ↔
    e.phase = .stop ∧ e.half = false := by
  rw [decodeUop_selector]
  rcases bit_slots e.bit with h | h | h <;> cases e.phase <;> cases e.rs <;> cases e.half <;>
    simp [rowOf, h]

theorem selects_uStopH1 : decodeUop (e.selector false) = some .uStopH1 ↔
    e.phase = .stop ∧ e.half = true := by
  rw [decodeUop_selector]
  rcases bit_slots e.bit with h | h | h <;> cases e.phase <;> cases e.rs <;> cases e.half <;>
    simp [rowOf, h]

end Rows

end Sys2Proof.Machine
end

