-- ==== Sys2Proof/Laws/Events.lean ====
section
/-! SUPPORT. What the events perform: the operations a selector can select, that performing one is `exec` of it, what a
micro-operation leaves unchanged; what entering a sequencer state begins. -/

namespace Sys2Proof.Machine

/-- R9: the legal parameters, as arithmetic. -/
theorem Params.bounds (p : Params) : 3 ≤ p.wmax ∧ p.wmax ≤ 16 ∧ 6 ≤ p.rmax ∧ p.rmax ≤ 16 ∧ 1 ≤ p.trigger.length ∧
    p.trigger.length ≤ p.wmax ∧ 6 ≤ p.readLen ∧ p.readLen ≤ p.rmax := by
  have hl := p.legal
  simp only [legalParams, Bool.and_eq_true, decide_eq_true_eq] at hl
  omega

/-- R120: what a UOP selector can select. -/
theorem decodeUop_cases {w : BitVec 10} {i : Instr} (h : decodeUop w = some i) :
    i = .uStartRs ∨ i = .uStart ∨ i = .uTxBitH0 ∨ i = .uTxBitH1 ∨ i = .uTxAckH0 ∨ i = .uTxAckPoll ∨ i = .uTxAckH1 ∨
      i = .uRxBitH0 ∨ i = .uRxBitPoll ∨ i = .uRxBitH1 ∨ i = .uRxMackH0 ∨ i = .uRxMackH1 ∨ i = .uStopH0 ∨
      i = .uStopH1 := by
  unfold decodeUop at h
  iterate 14 (rw [ite_eq_iff] at h; rcases h with ⟨-, h⟩ | ⟨-, h⟩; · cases h; simp)
  cases h

/-- R121: what a SEQOP selector can select. -/
theorem decodeSeqOp_cases {w : BitVec 5} {i : Instr} (h : decodeSeqOp w = some i) :
    i = .sFail ∨ i = .sResetOk ∨ i = .sCalOk ∨ i = .sPollcalOk ∨ i = .sTrigOk ∨ i = .sPollmeasOk ∨ i = .sReadOk := by
  have hall : ∀ w : BitVec 5, ∀ i ∈ decodeSeqOp w,
      i ∈ ([.sFail, .sResetOk, .sCalOk, .sPollcalOk, .sTrigOk, .sPollmeasOk, .sReadOk] : List Instr) := by decide
  simpa using hall w i h

/-- R160, R161: performing a selected micro-operation is `exec` of it. -/
theorem performUop_eq_exec {w : BitVec 10} {i : Instr} (h : decodeUop w = some i) (s : State) :
    performUop i s = exec i s := by
  rcases decodeUop_cases h with rfl | rfl | rfl | rfl | rfl | rfl | rfl | rfl | rfl | rfl | rfl | rfl | rfl | rfl <;> rfl

/-- R240: performing a selected dispatch operation is `exec` of it. -/
theorem performSeqOp_eq_exec {w : BitVec 5} {i : Instr} (h : decodeSeqOp w = some i) (s : State) :
    performSeqOp i s = exec i s := by
  rcases decodeSeqOp_cases h with rfl | rfl | rfl | rfl | rfl | rfl | rfl <;> rfl

/-- R160, R161: a selected micro-operation is never refused. -/
theorem performUop_not_refused {w : BitVec 10} {i : Instr} (h : decodeUop w = some i) (s : State) (r : Refusal) :
    performUop i s ≠ .refused r := by
  rcases decodeUop_cases h with rfl | rfl | rfl | rfl | rfl | rfl | rfl | rfl | rfl | rfl | rfl | rfl | rfl | rfl <;>
    simp only [performUop, execUStartRs, execUStart, execUTxBitH0, execUTxBitH1, execUTxAckH0, execUTxAckPoll,
      execUTxAckH1, execURxBitH0, execURxBitPoll, execURxBitH1, execURxMackH0, execURxMackH1, execUStopH0,
      execUStopH1] <;> exact microOp_not_refused

/-- R240: a selected dispatch operation is never refused. -/
theorem performSeqOp_not_refused {w : BitVec 5} {i : Instr} (h : decodeSeqOp w = some i) (s : State) (r : Refusal) :
    performSeqOp i s ≠ .refused r := by
  rcases decodeSeqOp_cases h with rfl | rfl | rfl | rfl | rfl | rfl | rfl <;>
    simp only [performSeqOp, execSFail, execSResetOk, execSCalOk, execSPollcalOk, execSTrigOk, execSPollmeasOk,
      execSReadOk, seqOp, issueStep] <;> repeat' split
  all_goals simp

/-- R290: performing the operation of a HOSTOP word is `exec` of it. -/
theorem performHostOp_eq_exec (p : Params) (w : BitVec 39) (s : State) :
    performHostOp (decodeHostOp p w) s = exec (decodeHostOp p w) s := by
  unfold decodeHostOp decodeWrite decodeRead decodeCmd
  repeat' split
  all_goals rfl

/-- R234: the store's transactions are commands. -/
theorem storeTxn_isCommand (p : Params) (n : Nat) (k : Issuing) :
    IsCommand p (storeBytes p k) (storeReads p k) (storeTxn p n k) := by
  have hp := Params.bounds p
  have h8 : ∀ m ≤ 16, (BitVec.ofNat 8 m).toNat = m := fun m hm => by simp; omega
  refine ⟨rfl, h8 _ ?_, h8 _ ?_, rfl, ?_, ?_⟩
  · cases k <;> simp [storeBytes]; omega
  · cases k <;> simp [storeReads]; omega
  · simp [storeTxn]
  · simp [storeTxn]; cases k <;> simp [storeBytes] <;> omega

/-- R150, R163: a BEGIN with a nonzero count is `begun`. -/
theorem State.engineBegin_begun (s : State) {t : Txn} (o : Owner) (h : t.wcnt ≠ 0#8 ∨ t.rcnt ≠ 0#8) :
    s.engineBegin t o = s.begun t o := State.engineBegin_start o h

/-- R231, R235: entering an issuing state begins its transaction for the sequencer. -/
theorem State.enter_begun (s : State) (k : Issuing) :
    s.enter k = ({ s with seq := { s.seq with state := k.toState } } : State).begun (storeTxn s.cfg s.draws k) .seq := by
  rw [State.enter_eq, State.issue_eq]; rfl

/-- R168: the ACK slot changes no owner. -/
theorem Engine.afterAck_owner {e e' : Engine} {t : Txn} (h : e.afterAck t = some e') : e'.owner = e.owner := by
  revert h
  unfold Engine.afterAck; dsimp only
  repeat' split
  all_goals simp
  all_goals (try (intro h; subst h; rfl))
  all_goals (intro x _ h; subst h; rfl)

/-- The frame of every micro-operation: the parameters, the latches, the host's descriptor and write buffer, `viol`,
the owner, the sequencer's state and reading, the inputs and the results. -/
structure UopFrame (s t : State) : Prop where
  cfg : t.cfg = s.cfg
  latch : t.latch = s.latch
  txn : t.txn = s.txn
  wbuf : t.wbuf = s.wbuf
  viol : t.viol = s.viol
  owner : t.eng.owner = s.eng.owner
  state : t.seq.state = s.seq.state
  err : t.seq.err = s.seq.err
  isNew : t.seq.isNew = s.seq.isNew
  valid : t.seq.valid = s.seq.valid
  hum : t.seq.hum = s.seq.hum
  temp : t.seq.temp = s.seq.temp
  ts : t.seq.ts = s.seq.ts
  inputs : t.inputs = s.inputs
  draws : t.draws = s.draws
  results : t.results = s.results

/-- What no micro-operation changes. -/
theorem performUop_frame {s t : State} {i : Instr} {w : BitVec 10} (hi : decodeUop w = some i)
    (ht : performUop i s = .next t) : UopFrame s t := by
  rcases decodeUop_cases hi with rfl | rfl | rfl | rfl | rfl | rfl | rfl | rfl | rfl | rfl | rfl | rfl | rfl | rfl <;>
    simp only [performUop, execUStartRs, execUStart, execUTxBitH0, execUTxBitH1, execUTxAckH0, execUTxAckPoll,
      execUTxAckH1, execURxBitH0, execURxBitPoll, execURxBitH1, execURxMackH0, execURxMackH1, execUStopH0,
      execUStopH1] at ht <;> obtain ⟨-, ht⟩ := microOp_next.1 ht
  case inr.inr.inr.inr.inr.inl | inr.inr.inr.inr.inr.inr.inr.inr.inl =>
    simp only [Option.some.injEq] at ht; subst ht
    split <;> constructor <;> rfl
  case inr.inr.inr.inr.inr.inr.inl =>
    cases he : s.eng.afterAck s.latch with
    | none => simp [he] at ht
    | some e =>
      have ho := Engine.afterAck_owner he
      simp only [he, Option.map_some, Option.some.injEq] at ht; subst ht
      constructor <;> first | exact ho | rfl
  case inr.inr.inr.inr.inr.inr.inr.inr.inr.inl =>
    split at ht
    · unfold State.storeReceived at ht
      split at ht
      · cases ht; constructor <;> rfl
      · cases ht
    · cases ht; constructor <;> rfl
  case inr.inr.inr.inr.inr.inr.inr.inr.inr.inr.inr.inl =>
    cases ht
    constructor <;> first | rfl | (simp only [State.arm, State.setClock, State.emit]; split <;> rfl)
  case inr.inr.inr.inr.inr.inr.inr.inr.inr.inr.inr.inr.inr =>
    simp only [Option.some.injEq] at ht; subst ht
    split
    · constructor <;> rfl
    · constructor <;> first | rfl | (simp only [State.complete, State.setData, State.emit]; split <;> rfl)
  all_goals cases ht; constructor <;> rfl

end Sys2Proof.Machine
end

