-- ==== Sys2Proof/Laws/Memory.lean ====
section
/-! SUPPORT. The buffers' memory: a read after a write, and that every operation keeps the canonical form. -/

namespace Sys2Proof.Machine

@[simp] theorem Memory.read_nil (a : Nat) : Memory.read [] a = 0#8 := rfl

@[simp] theorem Memory.wf_nil : Memory.wf [] := ⟨.nil, by simp⟩

theorem Memory.read_place_same (m : Memory) (a : Nat) (b : Byte) : (m.place a b).read a = b := by
  induction m with
  | nil => simp [Memory.place, Memory.read]
  | cons c t ih =>
    obtain ⟨k, v⟩ := c
    simp only [Memory.place]
    split
    · simp [Memory.read]
    · split
      · simp [Memory.read]
      · simp [Memory.read, Ne.symm ‹¬a = k›, ih]

theorem Memory.read_place_ne (m : Memory) {a a' : Nat} (b : Byte) (h : a' ≠ a) :
    (m.place a b).read a' = m.read a' := by
  induction m with
  | nil => simp [Memory.place, Memory.read, h.symm]
  | cons c t ih =>
    obtain ⟨k, v⟩ := c
    simp only [Memory.place]
    split
    · simp [Memory.read, h.symm]
    · split
      · subst a; simp [Memory.read, h.symm]
      · simp [Memory.read, ih]

theorem Memory.read_drop_same (m : Memory) (a : Nat) : (m.drop a).read a = 0#8 := by
  induction m with
  | nil => rfl
  | cons c t ih =>
    obtain ⟨k, v⟩ := c
    by_cases hk : k = a <;> simp_all [Memory.drop, Memory.read]

theorem Memory.read_drop_ne (m : Memory) {a a' : Nat} (h : a' ≠ a) : (m.drop a).read a' = m.read a' := by
  induction m with
  | nil => rfl
  | cons c t ih =>
    obtain ⟨k, v⟩ := c
    by_cases hk : k = a
    · subst k; simpa [Memory.drop, Memory.read, h.symm] using ih
    · simp_all [Memory.drop, Memory.read]

/-- A byte reads as it was last written. -/
@[simp] theorem Memory.read_write_same (m : Memory) (a : Nat) (b : Byte) : (m.write a b).read a = b := by
  unfold Memory.write
  split
  · simp_all [read_drop_same]
  · exact read_place_same m a b

/-- A write leaves every other byte alone. -/
theorem Memory.read_write_ne (m : Memory) {a a' : Nat} (b : Byte) (h : a' ≠ a) :
    (m.write a b).read a' = m.read a' := by
  unfold Memory.write
  split
  · exact read_drop_ne m h
  · exact read_place_ne m b h

theorem Memory.mem_place {m : Memory} {a : Nat} {b : Byte} {c : Host.Cell} (h : c ∈ m.place a b) :
    c = (a, b) ∨ c ∈ m := by
  induction m with
  | nil => simpa [Memory.place] using h
  | cons d t ih =>
    obtain ⟨k, v⟩ := d
    simp only [Memory.place] at h
    split at h
    · simpa using h
    · split at h
      · rcases List.mem_cons.1 h with rfl | h
        · exact .inl rfl
        · exact .inr (List.mem_cons_of_mem _ h)
      · rcases List.mem_cons.1 h with rfl | h
        · exact .inr (List.mem_cons_self ..)
        · exact (ih h).imp_right (List.mem_cons_of_mem _)

/-- A cell of a written buffer is the written one or was there before. -/
theorem Memory.mem_write {m : Memory} {a : Nat} {b : Byte} {c : Host.Cell} (h : c ∈ m.write a b) :
    c = (a, b) ∨ c ∈ m := by
  unfold Memory.write at h
  split at h
  · exact .inr (List.mem_of_mem_filter h)
  · exact mem_place h

theorem Memory.sorted_place {m : Memory} (a : Nat) (b : Byte)
    (h : m.Pairwise (fun x y => x.1 < y.1)) : (m.place a b).Pairwise (fun x y => x.1 < y.1) := by
  induction m with
  | nil => simp [Memory.place]
  | cons d t ih =>
    obtain ⟨k, v⟩ := d
    have ⟨hk, ht⟩ := List.pairwise_cons.1 h
    simp only [Memory.place]
    split
    · next hlt =>
      refine List.pairwise_cons.2 ⟨fun c hc => ?_, h⟩
      rcases List.mem_cons.1 hc with rfl | hc
      · exact hlt
      · exact Nat.lt_trans hlt (hk c hc)
    · split
      · next heq => subst heq; exact List.pairwise_cons.2 ⟨hk, ht⟩
      · refine List.pairwise_cons.2 ⟨fun c hc => ?_, ih ht⟩
        rcases mem_place hc with rfl | hc
        · show k < a; omega
        · exact hk c hc

/-- Every write keeps the canonical form. -/
theorem Memory.wf_write {m : Memory} (h : m.wf) (a : Nat) (b : Byte) : (m.write a b).wf := by
  refine ⟨?_, fun c hc => ?_⟩
  · unfold Memory.write
    split
    · exact h.1.filter _
    · exact sorted_place a b h.1
  · by_cases hb : b = 0#8
    · simp only [Memory.write, hb, if_true] at hc
      exact h.2 c (List.mem_of_mem_filter hc)
    · rcases mem_write hc with rfl | hc
      · exact hb
      · exact h.2 c hc

end Sys2Proof.Machine
end

