-- ==== Sys2Proof/Laws/PerInstr.lean ====
section
/-! SUPPORT. Statements for all operations, made per operation. `EncodedRow`: the word that `encode` gives a
well-formed operation lies in one of the operation's rows of spec/opcode_table.json, match and mask. -/

namespace Sys2Proof.Laws.EncodedRow

/-- The rows (match, mask) of an operation's mnemonic in spec/opcode_table.json. -/
def rows : Instr → List (Nat × Nat)
  | .evHost => [(0x0, 0x7)]
  | .evTick => [(0x1, 0x7)]
  | .evPoll => [(0x2, 0x7)]
  | .evDispatch => [(0x3, 0x7)]
  | .evReset => [(0x4, 0x7)]
  | .cmdNop => [(0x4000000000, 0x7F00000007)]
  | .cmdEngBegin => [(0x4000000001, 0x7F00000007)]
  | .cmdSeqInit => [(0x4000000002, 0x7F00000007)]
  | .cmdSeqRequestRead => [(0x4000000003, 0x7F00000007)]
  | .cmdReserved _ => [(0x4000000004, 0x7F00000004)]
  | .rdCmd => [(0x0000000000, 0x7F00000000)]
  | .rdStatus => [(0x0100000000, 0x7F00000000)]
  | .rdTxnAddr => [(0x0200000000, 0x7F00000000)]
  | .rdTxnWcnt => [(0x0300000000, 0x7F00000000)]
  | .rdTxnRcnt => [(0x0400000000, 0x7F00000000)]
  | .rdTxnFlags => [(0x0500000000, 0x7F00000000)]
  | .rdEPos => [(0x0600000000, 0x7F00000000)]
  | .rdEScratch => [(0x0700000000, 0x7F00000000)]
  | .rdSHum => [(0x0800000000, 0x7F00000000)]
  | .rdSTemp => [(0x0900000000, 0x7F00000000)]
  | .rdSTs => [(0x0A00000000, 0x7F00000000)]
  | .rdParams => [(0x0B00000000, 0x7F00000000)]
  | .rdWbuf _ => [(0x1000000000, 0x7000000000)]
  | .rdRbuf _ => [(0x2000000000, 0x7000000000)]
  | .rdUnmapped _ => [(0x0C00000000, 0x7C00000000), (0x3000000000, 0x7000000000)]
  | .wrTxnAddr _ => [(0x4200000000, 0x7F00000000)]
  | .wrTxnWcnt _ => [(0x4300000000, 0x7F00000000)]
  | .wrTxnRcnt _ => [(0x4400000000, 0x7F00000000)]
  | .wrTxnFlags _ => [(0x4500000000, 0x7F00000000)]
  | .wrWbuf _ _ => [(0x5000000000, 0x7000000000)]
  | .wrRo _ => [(0x4100000000, 0x7F00000000), (0x4600000000, 0x7E00000000), (0x4800000000, 0x7C00000000), (0x6000000000, 0x7000000000)]
  | .wrUnmapped _ => [(0x4C00000000, 0x7C00000000), (0x7000000000, 0x7000000000)]
  | .uStartRs => [(0x060, 0x3E0)]
  | .uStart => [(0x040, 0x3E0)]
  | .uTxBitH0 => [(0x080, 0x391)]
  | .uTxBitH1 => [(0x081, 0x391)]
  | .uTxAckH0 => [(0x090, 0x39F)]
  | .uTxAckPoll => [(0x290, 0x39F)]
  | .uTxAckH1 => [(0x091, 0x39F)]
  | .uRxBitH0 => [(0x100, 0x3D1)]
  | .uRxBitPoll => [(0x300, 0x3D1)]
  | .uRxBitH1 => [(0x101, 0x3D1)]
  | .uRxMackH0 => [(0x110, 0x3DF)]
  | .uRxMackH1 => [(0x111, 0x3DF)]
  | .uStopH0 => [(0x140, 0x3C1)]
  | .uStopH1 => [(0x141, 0x3C1)]
  | .sFail => [(0x00, 0x01)]
  | .sResetOk => [(0x03, 0x1F)]
  | .sCalOk => [(0x05, 0x1F)]
  | .sPollcalOk => [(0x07, 0x1F)]
  | .sTrigOk => [(0x09, 0x1F)]
  | .sPollmeasOk => [(0x0B, 0x1F)]
  | .sReadOk => [(0x0D, 0x1F)]

/-- The word lies in the row: word & mask = match. -/
def inRow : OpWord → Nat × Nat → Bool
  | .ev w, r => decide (w &&& BitVec.ofNat 3 r.2 = BitVec.ofNat 3 r.1)
  | .hostop w, r => decide (w &&& BitVec.ofNat 39 r.2 = BitVec.ofNat 39 r.1)
  | .uop w, r => decide (w &&& BitVec.ofNat 10 r.2 = BitVec.ofNat 10 r.1)
  | .seqop w, r => decide (w &&& BitVec.ofNat 5 r.2 = BitVec.ofNat 5 r.1)

/-- The encoded word of a well-formed operation lies in one of its rows. -/
def Statement (i : Instr) : Prop :=
  WellFormed Params.reference i = true → ∃ r ∈ rows i, inRow (encode i) r = true

/-- A mask that looks at `we` and `idx` only looks past the data. -/
theorem hostWord_masked (we m : Bool) (idx mi : Idx) (data : Word) :
    hostWord we idx data &&& hostWord m mi 0#32 = hostWord (we && m) (idx &&& mi) 0#32 := by
  unfold hostWord
  rw [BitVec.and_append, BitVec.and_append, BitVec.and_zero]
  cases we <;> cases m <;> rfl

/-- A write row whose mask is `0x7F00000000` fixes `we` and all of `idx`. -/
theorem writeWord_inRow {idx : Idx} {v : Nat} (data : Word)
    (h : hostWord true idx 0#32 = BitVec.ofNat 39 v) :
    inRow (writeWord idx data) (v, 0x7F00000000) = true := by
  have hm : BitVec.ofNat 39 0x7F00000000 = hostWord true 0x3F#6 0#32 := by decide
  have hi : idx &&& 0x3F#6 = idx := by clear h hm; revert idx; decide
  refine decide_eq_true ?_
  show hostWord true idx data &&& BitVec.ofNat 39 0x7F00000000 = BitVec.ofNat 39 v
  rw [hm, hostWord_masked, hi, ← h]; rfl

theorem evHost : Statement .evHost := fun _ =>
  ⟨_, List.mem_singleton.2 rfl, rfl⟩
theorem evTick : Statement .evTick := fun _ =>
  ⟨_, List.mem_singleton.2 rfl, rfl⟩
theorem evPoll : Statement .evPoll := fun _ =>
  ⟨_, List.mem_singleton.2 rfl, rfl⟩
theorem evDispatch : Statement .evDispatch := fun _ =>
  ⟨_, List.mem_singleton.2 rfl, rfl⟩
theorem evReset : Statement .evReset := fun _ =>
  ⟨_, List.mem_singleton.2 rfl, rfl⟩
theorem cmdNop : Statement .cmdNop := fun _ =>
  ⟨_, List.mem_singleton.2 rfl, rfl⟩
theorem cmdEngBegin : Statement .cmdEngBegin := fun _ =>
  ⟨_, List.mem_singleton.2 rfl, rfl⟩
theorem cmdSeqInit : Statement .cmdSeqInit := fun _ =>
  ⟨_, List.mem_singleton.2 rfl, rfl⟩
theorem cmdSeqRequestRead : Statement .cmdSeqRequestRead := fun _ =>
  ⟨_, List.mem_singleton.2 rfl, rfl⟩
theorem cmdReserved (op : BitVec 2) : Statement (.cmdReserved op) := fun _ => by
  refine ⟨_, List.mem_singleton.2 rfl, ?_⟩
  revert op; decide
theorem rdCmd : Statement .rdCmd := fun _ =>
  ⟨_, List.mem_singleton.2 rfl, rfl⟩
theorem rdStatus : Statement .rdStatus := fun _ =>
  ⟨_, List.mem_singleton.2 rfl, rfl⟩
theorem rdTxnAddr : Statement .rdTxnAddr := fun _ =>
  ⟨_, List.mem_singleton.2 rfl, rfl⟩
theorem rdTxnWcnt : Statement .rdTxnWcnt := fun _ =>
  ⟨_, List.mem_singleton.2 rfl, rfl⟩
theorem rdTxnRcnt : Statement .rdTxnRcnt := fun _ =>
  ⟨_, List.mem_singleton.2 rfl, rfl⟩
theorem rdTxnFlags : Statement .rdTxnFlags := fun _ =>
  ⟨_, List.mem_singleton.2 rfl, rfl⟩
theorem rdEPos : Statement .rdEPos := fun _ =>
  ⟨_, List.mem_singleton.2 rfl, rfl⟩
theorem rdEScratch : Statement .rdEScratch := fun _ =>
  ⟨_, List.mem_singleton.2 rfl, rfl⟩
theorem rdSHum : Statement .rdSHum := fun _ =>
  ⟨_, List.mem_singleton.2 rfl, rfl⟩
theorem rdSTemp : Statement .rdSTemp := fun _ =>
  ⟨_, List.mem_singleton.2 rfl, rfl⟩
theorem rdSTs : Statement .rdSTs := fun _ =>
  ⟨_, List.mem_singleton.2 rfl, rfl⟩
theorem rdParams : Statement .rdParams := fun _ =>
  ⟨_, List.mem_singleton.2 rfl, rfl⟩
theorem rdWbuf (i : BitVec 4) : Statement (.rdWbuf i) := fun _ => by
  refine ⟨_, List.mem_singleton.2 rfl, ?_⟩
  revert i; decide
theorem rdRbuf (i : BitVec 4) : Statement (.rdRbuf i) := fun _ => by
  refine ⟨_, List.mem_singleton.2 rfl, ?_⟩
  revert i; decide
theorem rdUnmapped (idx : Idx) : Statement (.rdUnmapped idx) := by
  revert idx; unfold Statement; decide
theorem wrTxnAddr (data : Word) : Statement (.wrTxnAddr data) := fun _ =>
  ⟨_, List.mem_singleton.2 rfl, writeWord_inRow data rfl⟩
theorem wrTxnWcnt (data : Word) : Statement (.wrTxnWcnt data) := fun _ =>
  ⟨_, List.mem_singleton.2 rfl, writeWord_inRow data rfl⟩
theorem wrTxnRcnt (data : Word) : Statement (.wrTxnRcnt data) := fun _ =>
  ⟨_, List.mem_singleton.2 rfl, writeWord_inRow data rfl⟩
theorem wrTxnFlags (data : Word) : Statement (.wrTxnFlags data) := fun _ =>
  ⟨_, List.mem_singleton.2 rfl, writeWord_inRow data rfl⟩
theorem wrWbuf (i : BitVec 4) (data : Word) : Statement (.wrWbuf i data) := fun h => by
  refine ⟨_, List.mem_singleton.2 rfl, ?_⟩
  have hm : BitVec.ofNat 39 0x7000000000 = hostWord true 0x30#6 0#32 := by decide
  refine decide_eq_true ?_
  show hostWord true (1#2 ++ i) data &&& BitVec.ofNat 39 0x7000000000 = _
  rw [hm, hostWord_masked]; clear h hm; revert i; decide
theorem wrRo (idx : Idx) : Statement (.wrRo idx) := by
  revert idx; unfold Statement; decide
theorem wrUnmapped (idx : Idx) : Statement (.wrUnmapped idx) := by
  revert idx; unfold Statement; decide
theorem uStartRs : Statement .uStartRs := fun _ =>
  ⟨_, List.mem_singleton.2 rfl, rfl⟩
theorem uStart : Statement .uStart := fun _ =>
  ⟨_, List.mem_singleton.2 rfl, rfl⟩
theorem uTxBitH0 : Statement .uTxBitH0 := fun _ =>
  ⟨_, List.mem_singleton.2 rfl, rfl⟩
theorem uTxBitH1 : Statement .uTxBitH1 := fun _ =>
  ⟨_, List.mem_singleton.2 rfl, rfl⟩
theorem uTxAckH0 : Statement .uTxAckH0 := fun _ =>
  ⟨_, List.mem_singleton.2 rfl, rfl⟩
theorem uTxAckPoll : Statement .uTxAckPoll := fun _ =>
  ⟨_, List.mem_singleton.2 rfl, rfl⟩
theorem uTxAckH1 : Statement .uTxAckH1 := fun _ =>
  ⟨_, List.mem_singleton.2 rfl, rfl⟩
theorem uRxBitH0 : Statement .uRxBitH0 := fun _ =>
  ⟨_, List.mem_singleton.2 rfl, rfl⟩
theorem uRxBitPoll : Statement .uRxBitPoll := fun _ =>
  ⟨_, List.mem_singleton.2 rfl, rfl⟩
theorem uRxBitH1 : Statement .uRxBitH1 := fun _ =>
  ⟨_, List.mem_singleton.2 rfl, rfl⟩
theorem uRxMackH0 : Statement .uRxMackH0 := fun _ =>
  ⟨_, List.mem_singleton.2 rfl, rfl⟩
theorem uRxMackH1 : Statement .uRxMackH1 := fun _ =>
  ⟨_, List.mem_singleton.2 rfl, rfl⟩
theorem uStopH0 : Statement .uStopH0 := fun _ =>
  ⟨_, List.mem_singleton.2 rfl, rfl⟩
theorem uStopH1 : Statement .uStopH1 := fun _ =>
  ⟨_, List.mem_singleton.2 rfl, rfl⟩
theorem sFail : Statement .sFail := fun _ =>
  ⟨_, List.mem_singleton.2 rfl, rfl⟩
theorem sResetOk : Statement .sResetOk := fun _ =>
  ⟨_, List.mem_singleton.2 rfl, rfl⟩
theorem sCalOk : Statement .sCalOk := fun _ =>
  ⟨_, List.mem_singleton.2 rfl, rfl⟩
theorem sPollcalOk : Statement .sPollcalOk := fun _ =>
  ⟨_, List.mem_singleton.2 rfl, rfl⟩
theorem sTrigOk : Statement .sTrigOk := fun _ =>
  ⟨_, List.mem_singleton.2 rfl, rfl⟩
theorem sPollmeasOk : Statement .sPollmeasOk := fun _ =>
  ⟨_, List.mem_singleton.2 rfl, rfl⟩
theorem sReadOk : Statement .sReadOk := fun _ =>
  ⟨_, List.mem_singleton.2 rfl, rfl⟩

end Sys2Proof.Laws.EncodedRow
end

