-- ==== Sys2Proof/Tests/Slice0.lean ====
section
/-! SUPPORT. Tests of the model. Expected results come from spec/95_test_vectors.md, the examples of the rules, or hand
calculation from the rules; each test names its source. Then, for every statement with hypotheses, the concrete states
that meet them. -/

namespace Sys2Proof.Tests
open Sys2Proof.Machine

/-! ### Well-formedness: one ill-formed term for each check -/

/-- The smallest legal buffers. -/
def small : Params where
  wmax := 3
  rmax := 6
  sensorAddr := 0x38#7
  trigger := [0xAC#8, 0x33#8, 0x00#8]
  readLen := 6
  busyBit := 7
  rawLayout := .reference
  legal := by decide

theorem test_wf_rdWbuf : WellFormed small (.rdWbuf 3#4) = false ∧ WellFormed small (.rdWbuf 2#4) = true := by decide
theorem test_wf_rdRbuf : WellFormed small (.rdRbuf 6#4) = false ∧ WellFormed small (.rdRbuf 5#4) = true := by decide
theorem test_wf_wrWbuf :
    WellFormed small (.wrWbuf 3#4 0#32) = false ∧ WellFormed small (.wrWbuf 2#4 0#32) = true := by decide
theorem test_wf_rdUnmapped : WellFormed Params.reference (.rdUnmapped 11#6) = false ∧
    WellFormed Params.reference (.rdUnmapped 16#6) = false ∧ WellFormed small (.rdUnmapped 19#6) = true := by decide
theorem test_wf_wrUnmapped : WellFormed Params.reference (.wrUnmapped 47#6) = false ∧
    WellFormed Params.reference (.wrUnmapped 48#6) = true ∧ WellFormed small (.wrUnmapped 38#6) = true := by decide
theorem test_wf_wrRo : WellFormed Params.reference (.wrRo 2#6) = false ∧
    WellFormed Params.reference (.wrRo 12#6) = false ∧ WellFormed Params.reference (.wrRo 47#6) = true ∧
    WellFormed small (.wrRo 38#6) = false := by decide
/-- R9: a parameter set outside the legal values, one for each bound. -/
theorem test_legal_bounds : legalParams 2 16 [0xAC#8] 6 7 = false ∧ legalParams 17 16 [0xAC#8] 6 7 = false ∧
    legalParams 16 5 [0xAC#8] 5 7 = false ∧ legalParams 16 17 [0xAC#8] 6 7 = false ∧ legalParams 16 16 [] 6 7 = false ∧
    legalParams 3 16 [0#8, 0#8, 0#8, 0#8] 6 7 = false ∧ legalParams 16 16 [0xAC#8] 5 7 = false ∧
    legalParams 16 6 [0xAC#8] 7 7 = false ∧ legalParams 16 16 [0xAC#8] 6 3 = false ∧
    legalParams 3 6 [0xAC#8] 6 0 = true := by decide

/-! ### Decoding: a word written out from the spec for every constructor -/

/-- The decoder under the reference parameters. -/
abbrev read (w : OpWord) : Option Instr := decode Params.reference w

-- R111, R122.
theorem test_decode_ev : read (.ev 0b000#3) = some .evHost ∧ read (.ev 0b001#3) = some .evTick ∧
    read (.ev 0b010#3) = some .evPoll ∧ read (.ev 0b011#3) = some .evDispatch ∧
    read (.ev 0b100#3) = some .evReset ∧ read (.ev 0b101#3) = none := by decide
-- spec/95 2.11: the commands; bits 31..3 ignored (R291).
theorem test_decode_cmd : read (.hostop 0x4000000000#39) = some .cmdNop ∧
    read (.hostop 0x4000000008#39) = some .cmdNop ∧ read (.hostop 0x4000000001#39) = some .cmdEngBegin ∧
    read (.hostop 0x4000000002#39) = some .cmdSeqInit ∧ read (.hostop 0x4000000003#39) = some .cmdSeqRequestRead ∧
    read (.hostop 0x4000000004#39) = some (.cmdReserved 0#2) ∧
    read (.hostop 0x4000000007#39) = some (.cmdReserved 3#2) := by decide
-- spec/95 2.11 and R310 to R324: `RD r` = idx(r) << 32; the data of a read is ignored (R124).
theorem test_decode_rd : read (.hostop 0x0000000000#39) = some .rdCmd ∧
    read (.hostop 0x0100000000#39) = some .rdStatus ∧ read (.hostop 0x01FFFFFFFF#39) = some .rdStatus ∧
    read (.hostop 0x0200000000#39) = some .rdTxnAddr ∧ read (.hostop 0x0300000000#39) = some .rdTxnWcnt ∧
    read (.hostop 0x0400000000#39) = some .rdTxnRcnt ∧ read (.hostop 0x0500000000#39) = some .rdTxnFlags ∧
    read (.hostop 0x0600000000#39) = some .rdEPos ∧ read (.hostop 0x0700000000#39) = some .rdEScratch := by decide
theorem test_decode_rd_more : read (.hostop 0x0800000000#39) = some .rdSHum ∧
    read (.hostop 0x0900000000#39) = some .rdSTemp ∧ read (.hostop 0x0A00000000#39) = some .rdSTs ∧
    read (.hostop 0x0B00000000#39) = some .rdParams ∧ read (.hostop 0x1300000000#39) = some (.rdWbuf 3#4) ∧
    read (.hostop 0x2500000000#39) = some (.rdRbuf 5#4) ∧ read (.hostop 0x0D00000000#39) = some (.rdUnmapped 13#6) ∧
    read (.hostop 0x3F00000000#39) = some (.rdUnmapped 63#6) := by decide
-- spec/95 2.11 and R325 to R331.
theorem test_decode_wr : read (.hostop 0x4200000038#39) = some (.wrTxnAddr 0x38#32) ∧
    read (.hostop 0x4300000003#39) = some (.wrTxnWcnt 3#32) ∧ read (.hostop 0x4400000006#39) = some (.wrTxnRcnt 6#32) ∧
    read (.hostop 0x4500000001#39) = some (.wrTxnFlags 1#32) ∧
    read (.hostop 0x50000000BA#39) = some (.wrWbuf 0#4 0xBA#32) ∧ read (.hostop 0x4100000000#39) = some (.wrRo 1#6) ∧
    read (.hostop 0x4600000000#39) = some (.wrRo 6#6) ∧ read (.hostop 0x4B00000000#39) = some (.wrRo 11#6) := by decide
theorem test_decode_wr_more : read (.hostop 0x6000000055#39) = some (.wrRo 32#6) ∧
    read (.hostop 0x4C000000FF#39) = some (.wrUnmapped 12#6) ∧
    read (.hostop 0x7F00000001#39) = some (.wrUnmapped 63#6) := by decide
-- R118: with WMAX = 3 and RMAX = 6 the buffer indices past the buffers are unmapped.
theorem test_decode_small : decode small (.hostop 0x1300000000#39) = some (.rdUnmapped 19#6) ∧
    decode small (.hostop 0x1200000000#39) = some (.rdWbuf 2#4) ∧
    decode small (.hostop 0x2600000000#39) = some (.rdUnmapped 38#6) ∧
    decode small (.hostop 0x53000000BA#39) = some (.wrUnmapped 19#6) ∧
    decode small (.hostop 0x6600000055#39) = some (.wrUnmapped 38#6) ∧
    decode small (.hostop 0x6500000055#39) = some (.wrRo 37#6) := by decide
-- spec/95 2.2, the selector column; 0x041 matches U.START too (C13).
theorem test_decode_uop : read (.uop 0x060#10) = some .uStartRs ∧ read (.uop 0x040#10) = some .uStart ∧
    read (.uop 0x041#10) = some .uStart ∧ read (.uop 0x082#10) = some .uTxBitH0 ∧
    read (.uop 0x0CF#10) = some .uTxBitH1 ∧ read (.uop 0x090#10) = some .uTxAckH0 ∧
    read (.uop 0x290#10) = some .uTxAckPoll ∧ read (.uop 0x0D1#10) = some .uTxAckH1 := by decide
theorem test_decode_uop_more : read (.uop 0x100#10) = some .uRxBitH0 ∧ read (.uop 0x30A#10) = some .uRxBitPoll ∧
    read (.uop 0x10F#10) = some .uRxBitH1 ∧ read (.uop 0x110#10) = some .uRxMackH0 ∧
    read (.uop 0x111#10) = some .uRxMackH1 ∧ read (.uop 0x140#10) = some .uStopH0 ∧
    read (.uop 0x141#10) = some .uStopH1 := by decide
-- spec/95 2.2: selectors that match no row.
theorem test_decode_uop_none : read (.uop 0x000#10) = none ∧ read (.uop 0x180#10) = none ∧
    read (.uop 0x092#10) = none ∧ read (.uop 0x2C6#10) = none := by decide
-- spec/95 2.8, the seqop column.
theorem test_decode_seqop : read (.seqop 0x02#5) = some .sFail ∧ read (.seqop 0x06#5) = some .sFail ∧
    read (.seqop 0x0C#5) = some .sFail ∧ read (.seqop 0x03#5) = some .sResetOk ∧ read (.seqop 0x05#5) = some .sCalOk ∧
    read (.seqop 0x07#5) = some .sPollcalOk ∧ read (.seqop 0x09#5) = some .sTrigOk ∧
    read (.seqop 0x0B#5) = some .sPollmeasOk ∧ read (.seqop 0x0D#5) = some .sReadOk := by decide
-- spec/95 2.8: selectors that match no row.
theorem test_decode_seqop_none : read (.seqop 0x00#5) = none ∧ read (.seqop 0x01#5) = none ∧
    read (.seqop 0x0E#5) = none ∧ read (.seqop 0x0F#5) = none ∧ read (.seqop 0x10#5) = none ∧
    read (.seqop 0x11#5) = none := by decide
-- The table's numbering: a row of each format, in whole bytes.
theorem test_table_words : decodeTableWord 8 2 = some .evPoll ∧ decodeTableWord 40 0x4200000000 = some (.wrTxnAddr 0#32) ∧
    decodeTableWord 16 0x290 = some .uTxAckPoll ∧ decodeTableWord 8 0x0D = some .sReadOk ∧
    decodeTableWord 5 0x03 = some .sResetOk ∧ decodeTableWord 3 4 = some .evReset ∧ decodeTableWord 8 7 = some .sPollcalOk ∧
    decodeTableWord 8 32 = none := by decide

/-! ### Small states -/

/-- What a result's next state shows. -/
def after {α : Type} (f : State → α) : Result → Option α
  | .next t => some (f t)
  | .fault _ => none
  | .refused _ => none

/-- The engine of a host transaction to 0x38 at a micro-state, armed: one write byte 0xBA, then two read bytes. -/
def slot (ph : Phase) (bit : BitVec 4) (half : Bool) : State :=
  { State.reset with
    eng := { Engine.reset with phase := ph, bit := bit, half := half, armed := true }
    latch := { addr := 0x38#7, wcnt := 1#8, rcnt := 2#8, rs := false, wdata := 0xBA#8 :: List.replicate 15 0x08#8 }
    lines := { scl := half || ph == .start, sda := !(half && ph == .stop) } }

/-- The same, holding at a poll site. -/
def hold (ph : Phase) (bit : BitVec 4) : State :=
  let s := slot ph bit false
  { s with eng := { s.eng with armed := false, wait := true }, lines := { scl := true, sda := true } }

/-- Inputs of one step: the agent, the peer's two outputs. -/
def pin (ev : BitVec 3) (scl sda : Bool) : Pins := { ev := ev, host := 0#39, scl := scl, sda := sda, now := 0x1234#32 }

/-- Inputs of one HOST step. -/
def access (w : BitVec 39) : Pins := { ev := 0#3, host := w, scl := true, sda := true, now := 0#32 }

/-- A sequencer-owned transaction that has completed, its completion pending, with a first buffer byte. -/
def completed (st : SeqState) (ok : Bool) (b : List (Nat × Byte)) : State :=
  { State.reset with
    eng := { Engine.reset with phase := if ok then .done else .failed, owner := .seq }
    seq := { Seq.reset with state := st, cplPend := true, cplOk := ok }
    rbuf := b
    inputs := [pin 3#3 true true] }

/-! ### The host port (spec/95 2.5, 2.11, 2.12) -/

theorem test_nop : after id (exec .cmdNop State.reset) = some State.reset := by decide
-- V-B2 and R311's example: STATUS 0x2A, E_SCRATCH 0x70, events SDA:=0 SCL:=0.
theorem test_eng_begin : after (fun t => (t.statusWord, t.eng.scratch, t.bus, t.eng.owner))
    (exec .cmdEngBegin { State.reset with
      txn := { addr := 0x38#7, wcnt := 1#8, rcnt := 0#8, rs := false }, wbuf := [(0, 0xBA#8)] }) =
    some (0x2A#32, 0x70#8, [.setSda false, .setScl false], .host) := by decide
-- V-V3: a count above WMAX is refused; V-B1: both counts 0 is no violation and no effect.
theorem test_eng_begin_count : after State.statusWord
    (exec .cmdEngBegin { State.reset with txn := { addr := 0#7, wcnt := 17#8, rcnt := 0#8, rs := false } }) =
      some 0x380000#32 ∧
    after id (exec .cmdEngBegin State.reset) = some State.reset := by decide
-- V-S10.
theorem test_seq_init : after (fun t => (t.statusWord, t.eng.scratch, t.latch.wdata.head?, t.latch.wcnt))
    (exec .cmdSeqInit State.reset) = some (0x13A#32, 0x70#8, some 0xBA#8, 1#8) := by decide
-- V-V4c: a completion awaiting DISPATCH refuses SEQ_INIT.
theorem test_seq_init_refused :
    after State.statusWord (exec .cmdSeqInit (completed .reset true [])) = some 0x3E0116#32 := by decide
-- V-S13 (here with no earlier reading, so without bit 16) and W4.
theorem test_request_read : after (fun t => (t.seq.state, t.seq.isNew, t.latch.wdata.take 3))
    (exec .cmdSeqRequestRead { State.reset with seq := { Seq.reset with state := .idle, isNew := true } }) =
      some (.trigger, false, [0xAC#8, 0x33#8, 0x00#8]) ∧
    after id (exec .cmdSeqRequestRead State.reset) = some State.reset := by decide
-- V-V6.
theorem test_reserved : after State.statusWord (exec (.cmdReserved 0#2) State.reset) = some 0x380000#32 := by decide
-- spec/95 2.11, reads after reset.
theorem test_reads_after_reset : after State.results (exec .rdCmd State.reset) = some [0#32] ∧
    after State.results (exec .rdStatus State.reset) = some [0x00300000#32] ∧
    after State.results (exec .rdParams State.reset) = some [0x00381010#32] ∧
    after State.results (exec (.rdUnmapped 63#6) State.reset) = some [0#32] := by decide
-- spec/95 2.11, STATUS decode examples: waiting at the ACK sample; FAILED and ERROR.
theorem test_status_examples : (hold .addr 8#4).statusWord = 0x0030004A#32 ∧
    ({ State.reset with
      eng := { Engine.reset with phase := .failed, owner := .seq }
      seq := { Seq.reset with state := .error, err := .deviceNotPresent } } : State).statusWord = 0x00303817#32 := by
  decide
-- R312 to R315 examples: the slices kept by the writes, then read.
theorem test_txn_write_read :
    after (fun t => after State.results (exec .rdTxnAddr t)) (exec (.wrTxnAddr 0xB8#32) State.reset) =
      some (some [0x38#32]) ∧
    after (fun t => after State.results (exec .rdTxnWcnt t)) (exec (.wrTxnWcnt 0x1FF#32) State.reset) =
      some (some [0xFF#32]) ∧
    after (fun t => after State.results (exec .rdTxnRcnt t)) (exec (.wrTxnRcnt 6#32) State.reset) =
      some (some [6#32]) ∧
    after (fun t => after State.results (exec .rdTxnFlags t)) (exec (.wrTxnFlags 0xFFFFFFFF#32) State.reset) =
      some (some [1#32]) := by decide
-- R329's example and spec/95 2.11: 0x100 stores 0; 0xBA stores 0xBA; R329: past WMAX ignored.
theorem test_wbuf : after State.wbuf (exec (.wrWbuf 2#4 0x100#32) State.reset) = some [] ∧
    after (fun t => after State.results (exec (.rdWbuf 0#4) t)) (exec (.wrWbuf 0#4 0xBA#32) State.reset) =
      some (some [0xBA#32]) ∧
    after State.wbuf (exec (.wrWbuf 3#4 0xBA#32) (State.resetWith small)) = some [] := by decide
-- R323; R316's example: WRITE, byte 0, bit 3, half 1; R317's: a partial byte.
theorem test_rbuf_epos_scratch :
    after State.results (exec (.rdRbuf 0#4) { State.reset with rbuf := [(0, 0x08#8)] }) = some [0x08#32] ∧
    after State.results (exec .rdEPos (slot .write 3#4 true)) = some [0x1300#32] ∧
    after State.results (exec .rdEScratch { State.reset with eng := { Engine.reset with scratch := 0x70#8 } }) =
      some [0x70#32] := by decide
-- R318 to R320 examples.
theorem test_reading_reads : after State.results
      (exec .rdSHum { State.reset with seq := { Seq.reset with hum := humWord 0x80000#20 } }) = some [0x1388#32] ∧
    after State.results
      (exec .rdSTemp { State.reset with seq := { Seq.reset with temp := tempWord 0#20 } }) = some [0xFFFFEC78#32] ∧
    after State.results (exec .rdSTs { State.reset with seq := { Seq.reset with ts := 0x1234#32 } }) =
      some [0x1234#32] := by decide
-- R330: writing STATUS cannot clear VIOL; R331.
theorem test_inert_writes : after State.viol (exec (.wrRo 1#6) { State.reset with viol := true }) = some true ∧
    after id (exec (.wrUnmapped 12#6) State.reset) = some State.reset := by decide

/-! ### The micro-operations (spec/95 2.2) -/

-- V-E1.
theorem test_start_rs : after (fun t => (t.bus, t.eng.rs, t.eng.phase, t.eng.armed))
    (exec .uStartRs
      (let s := slot .start 0#4 false; { s with eng := { s.eng with rs := true, armed := false } })) =
    some ([.setSda true, .setScl true], false, .start, true) := by decide
-- V-E2 and V-E2b.
theorem test_start : after (fun t => (t.bus, t.eng.scratch, t.eng.phase)) (exec .uStart (slot .start 0#4 false)) =
      some ([.setSda false, .setScl false], 0x70#8, .addr) ∧
    after (fun t => t.eng.scratch)
      (exec .uStart (let s := slot .start 0#4 false; { s with eng := { s.eng with dir := true } })) =
      some 0x71#8 := by decide
-- V-E3 and V-E3b.
theorem test_tx_bit_h0 : after (fun t => (t.bus, t.eng.half, t.eng.bit))
      (exec .uTxBitH0 (let s := slot .addr 1#4 false; { s with eng := { s.eng with scratch := 0x70#8 } })) =
      some ([.setSda true, .setScl true], true, 1#4) ∧
    after State.bus
      (exec .uTxBitH0 (let s := slot .addr 0#4 false; { s with eng := { s.eng with scratch := 0x70#8 } })) =
      some [.setSda false, .setScl true] := by decide
-- V-E4.
theorem test_tx_bit_h1 : after (fun t => (t.bus, t.eng.bit, t.eng.half)) (exec .uTxBitH1 (slot .write 7#4 true)) =
    some ([.setScl false], 8#4, false) := by decide
-- V-E5 (the TICK that performs it has cleared e_armed).
theorem test_tx_ack_h0 : after (fun t => (t.bus, t.eng.wait, t.eng.armed))
    (exec .evTick (slot .addr 8#4 false)) = some ([.setSda true, .setScl true], true, false) := by decide
-- V-E6, V-E6b; V-E6c.
theorem test_tx_ack_poll : after (fun t => (t.bus, t.eng.nack, t.eng.half, t.eng.wait, t.eng.armed))
      (exec .uTxAckPoll { hold .addr 8#4 with inputs := [pin 2#3 true false] }) =
      some ([.readScl true, .readSda false], false, true, false, true) ∧
    after (fun t => t.eng.nack) (exec .uTxAckPoll { hold .addr 8#4 with inputs := [pin 2#3 true true] }) =
      some true := by decide
theorem test_tx_ack_poll_stretched :
    after (fun t => (t.bus, t.eng)) (exec .uTxAckPoll { hold .addr 8#4 with inputs := [pin 2#3 false false] }) =
      some ([.readScl false], (hold .addr 8#4).eng) := by decide
-- V-E7, V-E7b, V-E7e (with the latch's rs set), V-E7f.
theorem test_tx_ack_h1 : after (fun t => (t.bus, t.eng.phase, t.eng.byte, t.eng.bit, t.eng.scratch))
      (exec .uTxAckH1 (slot .addr 8#4 true)) = some ([.setScl false], .write, 0#8, 0#4, 0xBA#8) ∧
    after (fun t => (t.eng.phase, t.eng.byte))
      (exec .uTxAckH1 (let s := slot .addr 8#4 true; { s with eng := { s.eng with dir := true } })) =
      some (.read, 0#8) ∧
    after (fun t => (t.eng.phase, t.eng.rs, t.eng.dir, t.eng.byte))
      (exec .uTxAckH1 (let s := slot .write 8#4 true; { s with latch := { s.latch with rs := true } })) =
      some (.start, true, true, 1#8) ∧
    after (fun t => (t.eng.phase, t.eng.next, t.eng.dir)) (exec .uTxAckH1 (slot .write 8#4 true)) =
      some (.stop, true, true) := by decide
-- V-E7c, V-E7d, V-E7g.
theorem test_tx_ack_h1_more : after (fun t => (t.eng.phase, t.eng.byte, t.eng.scratch))
      (exec .uTxAckH1 (let s := slot .write 8#4 true; { s with latch := { s.latch with wcnt := 3#8 } })) =
      some (.write, 1#8, 0x08#8) ∧
    after (fun t => (t.eng.phase, t.eng.byte, t.eng.next))
      (exec .uTxAckH1 (let s := slot .write 8#4 true; { s with latch := { s.latch with rcnt := 0#8 } })) =
      some (.stop, 1#8, false) ∧
    after (fun t => (t.eng.phase, t.eng.fail, t.eng.next, t.eng.byte))
      (exec .uTxAckH1 (let s := slot .write 8#4 true; { s with eng := { s.eng with nack := true, byte := 1#8 } })) =
      some (.stop, true, false, 1#8) := by decide
-- V-E8.
theorem test_rx_bit_h0 : after (fun t => (t.bus, t.eng.wait)) (exec .uRxBitH0 (slot .read 0#4 false)) =
    some ([.setSda true, .setScl true], true) := by decide
-- V-E9, V-E9b.
theorem test_rx_bit_poll : after (fun t => (t.eng.scratch, t.eng.half, t.eng.armed))
      (exec .uRxBitPoll (let s := hold .read 5#4
        { s with eng := { s.eng with scratch := 0x02#8 }, inputs := [pin 2#3 true true] })) =
      some (0x05#8, true, true) ∧
    after (fun t => (t.bus, t.eng)) (exec .uRxBitPoll { hold .read 5#4 with inputs := [pin 2#3 false true] }) =
      some ([.readScl false], (hold .read 5#4).eng) := by decide
-- V-E9c, V-E9d.
theorem test_rx_bit_h1 : after (fun t => (t.bus, t.rbuf, t.eng.bit))
      (exec .uRxBitH1 (let s := slot .read 7#4 true; { s with eng := { s.eng with scratch := 0x08#8 } })) =
      some ([.setScl false], [(0, 0x08#8)], 8#4) ∧
    after (fun t => (t.rbuf, t.eng.bit)) (exec .uRxBitH1 (slot .read 3#4 true)) = some ([], 4#4) := by decide
-- V-E11, V-E11b.
theorem test_rx_mack_h0 : after (fun t => (t.bus, t.eng.half)) (exec .uRxMackH0 (slot .read 8#4 false)) =
      some ([.setSda false, .setScl true], true) ∧
    after State.bus (exec .uRxMackH0 (let s := slot .read 8#4 false; { s with eng := { s.eng with byte := 1#8 } })) =
      some [.setSda true, .setScl true] := by decide
-- V-E12, V-E12b (with e_rcnt = 2).
theorem test_rx_mack_h1 : after (fun t => (t.bus, t.eng.phase, t.eng.byte, t.eng.bit))
      (exec .uRxMackH1 (slot .read 8#4 true)) = some ([.setScl false], .read, 1#8, 0#4) ∧
    after (fun t => (t.eng.phase, t.eng.byte, t.eng.next))
      (exec .uRxMackH1 (let s := slot .read 8#4 true; { s with eng := { s.eng with byte := 1#8 } })) =
      some (.stop, 1#8, false) := by decide
-- V-E13.
theorem test_stop_h0 : after (fun t => (t.bus, t.eng.half, t.eng.armed)) (exec .uStopH0 (slot .stop 0#4 false)) =
    some ([.setSda false, .setScl true], true, true) := by decide
-- V-E14, V-E14b, V-E14c, V-E14d.
theorem test_stop_h1 : after (fun t => (t.bus, t.eng.phase, t.eng.armed, t.seq)) (exec .evTick (slot .stop 0#4 true)) =
      some ([.setSda true], .done, false, Seq.reset) ∧
    after (fun t => t.eng.phase)
      (exec .uStopH1 (let s := slot .stop 0#4 true; { s with eng := { s.eng with fail := true } })) = some .failed := by
  decide
theorem test_stop_h1_more : after (fun t => (t.eng.phase, t.eng.rs, t.eng.next, t.eng.armed))
      (exec .uStopH1 (let s := slot .stop 0#4 true; { s with eng := { s.eng with next := true } })) =
      some (.start, false, false, true) ∧
    after (fun t => (t.eng.phase, t.seq.cplPend, t.seq.cplOk))
      (exec .uStopH1 (let s := slot .stop 0#4 true; { s with eng := { s.eng with owner := .seq } })) =
      some (.done, true, true) := by decide

/-! ### The sequencer (spec/95 2.8) -/

-- V-S1 and V-S1c.
theorem test_s_fail : after (fun t => (t.seq.state, t.seq.err, t.seq.cplPend, t.bus))
      (exec .evDispatch (completed .reset false [])) = some (.error, .deviceNotPresent, false, []) ∧
    after (fun t => (t.seq.state, t.seq.err)) (exec .sFail (completed .read false [])) =
      some (.error, .deviceNotPresent) := by decide
-- V-S2.
theorem test_s_reset_ok : after (fun t => (t.statusWord, t.latch.wdata.take 3, t.latch.wcnt))
    (exec .evDispatch (completed .reset true [])) = some (0x4023A#32, [0xE1#8, 0x08#8, 0x00#8], 3#8) := by decide
-- V-S3.
theorem test_s_cal_ok : after (fun t => (t.seq.state, t.latch.wcnt, t.latch.rcnt, t.eng.scratch))
    (exec .sCalOk (completed .calibrate true [])) = some (.pollCal, 0#8, 1#8, 0x71#8) := by decide
-- V-S4, V-S4c.
theorem test_s_pollcal_ok : after (fun t => (t.seq.state, t.latch.wdata.take 3))
      (exec .sPollcalOk (completed .pollCal true [(0, 0x08#8)])) = some (.trigger, [0xAC#8, 0x33#8, 0x00#8]) ∧
    after (fun t => (t.seq.state, t.latch.rcnt)) (exec .sPollcalOk (completed .pollCal true [(0, 0x80#8)])) =
      some (.pollCal, 1#8) := by decide
-- V-S4d, V-S4e.
theorem test_s_pollcal_fails : after (fun t => (t.seq.state, t.seq.err, t.bus))
      (exec .sPollcalOk (completed .pollCal true [])) = some (.error, .calibrationFailed, []) ∧
    after (fun t => (t.seq.state, t.seq.err)) (exec .sPollcalOk (completed .pollCal true [(0, 0x77#8)])) =
      some (.error, .calibrationFailed) := by decide
-- V-S5.
theorem test_s_trig_ok : after (fun t => (t.seq.state, t.latch.rcnt)) (exec .sTrigOk (completed .trigger true [])) =
    some (.pollMeas, 1#8) := by decide
-- V-S6b, V-S6c.
theorem test_s_pollmeas_ok : after (fun t => (t.seq.state, t.latch.rcnt))
      (exec .sPollmeasOk (completed .pollMeas true [(0, 0x80#8)])) = some (.pollMeas, 1#8) ∧
    after (fun t => (t.seq.state, t.latch.rcnt)) (exec .sPollmeasOk (completed .pollMeas true [])) =
      some (.read, 6#8) := by decide
-- V-S7.
theorem test_s_read_ok : after (fun t => (t.seq.state, t.seq.hum, t.seq.temp, t.seq.ts))
      (exec .sReadOk (completed .read true [(0, 0x1C#8), (1, 0x80#8), (3, 0x08#8)])) =
      some (.idle, 5000#32, 5000#32, 0x1234#32) ∧
    after (fun t => (t.seq.valid, t.seq.isNew, t.bus))
      (exec .sReadOk (completed .read true [(0, 0x1C#8), (1, 0x80#8), (3, 0x08#8)])) = some (true, true, []) := by
  decide
-- V-S7b.
theorem test_s_read_ok_more : after (fun t => (t.seq.hum, t.seq.temp))
      (exec .sReadOk
        (completed .read true [(0, 0x1C#8), (1, 0x6B#8), (2, 0x3E#8), (3, 0x55#8), (4, 0xC7#8), (5, 0x3A#8)])) =
      some (4189#32, 2222#32) := by decide
-- V-S20: the corner inputs of the conversion.
theorem test_conversion : humWord 0x00068#20 = 0#32 ∧ humWord 0x00069#20 = 1#32 ∧ humWord 0x66666#20 = 3999#32 ∧
    tempWord 0x00034#20 = 0xFFFFEC78#32 ∧ tempWord 0x00035#20 = 0xFFFFEC79#32 ∧ tempWord 0x40000#20 = 0#32 ∧
    tempWord 0x5999A#20 = 0x7D0#32 ∧ tempWord 0xFFFFF#20 = 0x3A97#32 := by decide

/-! ### Events and steps -/

-- R160, R161, R240: an event that is not enabled has no step; R128.
theorem test_not_enabled : exec .evTick State.reset = .refused (.eventNotEnabled "EV.TICK") ∧
    exec .evPoll State.reset = .refused (.eventNotEnabled "EV.POLL") ∧
    exec .evDispatch State.reset = .refused (.eventNotEnabled "EV.DISPATCH") ∧
    step { State.reset with inputs := [pin 5#3 true true] } = .refused .noSuchEvent := ⟨rfl, rfl, rfl, rfl⟩
-- R125 and B4: what the model faults on.
theorem test_faults : exec .evTick (slot .addr 9#4 false) = .fault .busFault ∧
    exec .evDispatch { State.reset with seq := { Seq.reset with cplPend := true } } = .fault .strayCompletion ∧
    step { State.reset with seq := { Seq.reset with err := .busNack } } = .fault .reservedCodeHeld ∧
    exec .sCalOk { completed .calibrate true [] with eng := (slot .addr 0#4 false).eng } =
      .fault .issueWhileBusy := ⟨rfl, rfl, rfl, rfl⟩
-- V-R2: reset in the middle of a transaction.
theorem test_reset : after (fun t => (t.statusWord, t.bus, t.eng.armed))
    (exec .evReset (let s := slot .addr 1#4 false; { s with lines := { scl := false, sda := true } })) =
    some (0x300000#32, [.rst], false) := by decide
-- W4 as a step: the host's access word, performed by EV.HOST; the input is used up.
theorem test_step_host : after (fun t => (t.results, t.inputs, t.draws))
    (step { State.reset with inputs := [access 0x0100000000#39] }) = some ([0x300000#32], [], 1) := by decide
-- A row of each format, placed and stepped from reset.
theorem test_fetch : after (fun t => t.txn.addr) (step (State.reset.withFetchWord 40 0x4200000050)) = some 0x50#7 ∧
    after (fun t => t.eng.wait) (step (State.reset.withFetchWord 16 0x090)) = some true ∧
    after (fun t => t.seq.state) (step (State.reset.withFetchWord 8 0x0D)) = some .idle ∧
    after (fun t => t.bus) (step (State.reset.withFetchWord 8 4)) = some [.rst] := by decide
theorem test_fetch_more : after (fun t => t.eng.nack) (step (State.reset.withFetchWord 16 0x290)) = some true ∧
    after (fun t => t.seq.state) (step (State.reset.withFetchWord 5 0x02)) = some .error ∧
    after (fun t => t.eng.phase) (step (State.reset.withFetchWord 8 1)) = some .addr ∧
    after (fun t => t.seq.state) (step (State.reset.withFetchWord 8 3)) = some .calibrate := by decide

/-! ### Witnesses: states and operands that meet the hypotheses of each statement -/

theorem witness_EncodeThenDecode : WellFormed Params.reference (.rdWbuf 15#4) = true ∧
    WellFormed Params.reference (.rdRbuf 0#4) = true ∧ WellFormed Params.reference (.wrWbuf 15#4 0xBA#32) = true ∧
    WellFormed Params.reference (.rdUnmapped 12#6) = true ∧ WellFormed Params.reference (.rdUnmapped 48#6) = true ∧
    WellFormed Params.reference (.wrUnmapped 15#6) = true ∧ WellFormed Params.reference (.wrUnmapped 63#6) = true ∧
    WellFormed Params.reference .sFail = true := by decide
theorem witness_EncodeThenDecode_more : WellFormed Params.reference (.wrRo 1#6) = true ∧
    WellFormed Params.reference (.wrRo 6#6) = true ∧ WellFormed Params.reference (.wrRo 11#6) = true ∧
    WellFormed Params.reference (.wrRo 32#6) = true ∧ WellFormed Params.reference (.wrRo 47#6) = true ∧
    WellFormed small (.rdUnmapped 31#6) = true ∧ WellFormed small (.wrUnmapped 47#6) = true := by decide
/-- Every row of R118 is matched by its pattern, and by its pattern with every bit it does not look at set; so the
premise of each `Selects` is met. -/
theorem witness_Selects : ∀ r ∈ hostRows Params.reference,
    r.pattern &&& r.mask = r.pattern ∧ (r.pattern ||| ~~~r.mask) &&& r.mask = r.pattern := by decide
theorem witness_DispatchSelectorMatchesItsRow :
    ((0x00#5 : BitVec 5) >>> 1).toNat = 0 ∧ ((0x01#5 : BitVec 5) >>> 1).toNat = 0 ∧
    7 ≤ ((0x0E#5 : BitVec 5) >>> 1).toNat ∧ 7 ≤ ((0x1F#5 : BitVec 5) >>> 1).toNat := by decide
theorem witness_EventCodesNameTheirAgents : 5 ≤ (5#3 : BitVec 3).toNat ∧ 5 ≤ (7#3 : BitVec 3).toNat ∧
    ({ State.reset with inputs := [pin 5#3 true true] } : State).pins.ev = 5#3 := by decide
theorem witness_SelectorsAreReadFromState : (hold .addr 8#4).eng.wait = true ∧ (hold .read 7#4).eng.wait = true := by
  decide
theorem witness_StepRunsTheDecodedEvent : State.reset.reservedHeld = false ∧
    decodeEv ({ State.reset with inputs := [access 0x0100000000#39] } : State).pins.ev = some .evHost ∧
    (slot .addr 0#4 false).reservedHeld = false ∧
    decodeEv ({ slot .addr 0#4 false with inputs := [pin 1#3 true true] } : State).pins.ev = some .evTick := by decide

/-- The states used below meet the invariant. -/
theorem inv_reset : Inv State.reset := by
  refine ⟨?_, ?_, ?_, ?_, ?_, .inl rfl⟩ <;> constructor <;> decide
theorem inv_tick : Inv (slot .addr 0#4 false) := by
  refine ⟨?_, ?_, ?_, ?_, ?_, .inl rfl⟩ <;> constructor <;> decide
theorem inv_tick_more : Inv (slot .write 8#4 true) ∧ Inv (slot .read 7#4 true) ∧ Inv (slot .stop 0#4 true) := by
  refine ⟨?_, ?_, ?_⟩ <;> refine ⟨?_, ?_, ?_, ?_, ?_, .inl rfl⟩ <;> constructor <;> decide
theorem inv_poll : Inv (hold .addr 8#4) ∧ Inv (hold .read 0#4) := by
  refine ⟨?_, ?_⟩ <;> refine ⟨?_, ?_, ?_, ?_, ?_, .inl rfl⟩ <;> constructor <;> decide
theorem inv_dispatch : Inv (completed .reset true []) ∧ Inv (completed .read false []) ∧
    Inv (completed .pollCal true [(0, 0x80#8)]) := by
  refine ⟨?_, ?_, ?_⟩ <;> refine ⟨?_, ?_, ?_, ?_, ?_, .inl rfl⟩ <;> constructor <;> decide

theorem witness_TickPerformsTheSelectedMicroOp : (slot .addr 0#4 false).eng.armed = true ∧
    decodeUop (slot .addr 0#4 false).tickSel = some .uTxBitH0 ∧ State.reset.eng.armed = false ∧
    Inv (slot .addr 0#4 false) := ⟨rfl, rfl, rfl, inv_tick⟩
theorem witness_PollPerformsTheSelectedMicroOp : (hold .addr 8#4).eng.wait = true ∧
    decodeUop (hold .addr 8#4).uop = some .uTxAckPoll ∧ State.reset.eng.wait = false ∧
    Inv (hold .addr 8#4) := ⟨rfl, rfl, rfl, inv_poll.1⟩
theorem witness_DispatchConsumesOneCompletion : (completed .reset true []).seq.cplPend = true ∧
    decodeSeqOp (completed .reset true []).seqop = some .sResetOk ∧ State.reset.seq.cplPend = false ∧
    Inv (completed .reset true []) := ⟨rfl, rfl, rfl, inv_dispatch.1⟩
theorem witness_OnlyHostAndResetAtTheEnd : ErrInv State.reset ∧ Quiescent State.reset ∧
    (∀ ev : BitVec 3, ErrInv { State.reset with inputs := [pin ev true true] } ∧
      Quiescent { State.reset with inputs := [pin ev true true] } ∧
      ({ State.reset with inputs := [pin ev true true] } : State).pins.ev = ev) :=
  ⟨.inl rfl, ⟨rfl, rfl, rfl, rfl⟩, fun _ => ⟨.inl rfl, ⟨rfl, rfl, rfl, rfl⟩, rfl⟩⟩
theorem witness_UnmatchedSelectorsFault :
    (slot .addr 9#4 false).eng.armed = true ∧ decodeUop (slot .addr 9#4 false).tickSel = none ∧
    (hold .addr 3#4).eng.wait = true ∧ decodeUop (hold .addr 3#4).uop = none ∧
    (completed .idle true []).seq.cplPend = true ∧ decodeSeqOp (completed .idle true []).seqop = none := by decide

/-- Before the repeated START: SCL is low and `e_rs` is set. -/
def beforeRepeated : State :=
  let s := slot .start 0#4 false
  { s with eng := { s.eng with rs := true, dir := true }, lines := { scl := false, sda := false } }

theorem witness_StartMicroOps : beforeRepeated.tickSel &&& 0x3E0#10 = 0x060#10 ∧ LineInv beforeRepeated ∧
    (slot .start 0#4 false).tickSel &&& 0x3E0#10 = 0x040#10 ∧ LineInv (slot .start 0#4 false) := by
  refine ⟨by decide, ?_, by decide, ?_⟩ <;> constructor <;> decide
theorem witness_TransmitBitMicroOps : (slot .addr 0#4 false).tickSel &&& 0x391#10 = 0x080#10 ∧
    (slot .write 7#4 false).tickSel &&& 0x391#10 = 0x080#10 ∧ (slot .addr 0#4 true).tickSel &&& 0x391#10 = 0x081#10 ∧
    (slot .write 7#4 true).tickSel &&& 0x391#10 = 0x081#10 ∧ LineInv (slot .addr 0#4 false) ∧
    (slot .addr 0#4 false).eng.wait = false := ⟨rfl, rfl, rfl, rfl, inv_tick.line, rfl⟩
theorem witness_ReleaseForTheSampleMicroOps : (slot .addr 8#4 false).tickSel &&& 0x39F#10 = 0x090#10 ∧
    (slot .write 8#4 false).tickSel &&& 0x39F#10 = 0x090#10 ∧ (slot .read 0#4 false).tickSel &&& 0x3D1#10 = 0x100#10 ∧
    (slot .read 7#4 false).tickSel &&& 0x3D1#10 = 0x100#10 ∧ LineInv (slot .addr 8#4 false) ∧
    LineInv (slot .read 7#4 false) := by
  refine ⟨rfl, rfl, rfl, rfl, ?_, ?_⟩ <;> constructor <;> decide
theorem witness_AckPollWaitsAndSamples : (hold .addr 8#4).uop &&& 0x39F#10 = 0x290#10 ∧ LineInv (hold .addr 8#4) ∧
    (let s : State := { hold .addr 8#4 with inputs := [pin 2#3 false true] };
      s.uop &&& 0x39F#10 = 0x290#10 ∧ (s.lines.scl && s.pins.scl) = false) ∧
    (let s : State := { hold .write 8#4 with inputs := [pin 2#3 true false] };
      s.uop &&& 0x39F#10 = 0x290#10 ∧ (s.lines.scl && s.pins.scl) = true) :=
  ⟨rfl, inv_poll.1.line, ⟨rfl, rfl⟩, rfl, rfl⟩
/-- NACK, ACKed address of a write and of a read, a byte that is not the last and the last byte with each way on. -/
theorem witness_AckSlotDecidesTheNextByteOrPhase :
    (let s := slot .addr 8#4 true;
      let t : State := { s with eng := { s.eng with nack := true } };
      t.eng.nack = true ∧ WalkInv t ∧ t.tickSel &&& 0x39F#10 = 0x091#10) ∧
    (let s := slot .addr 8#4 true;
      s.eng.nack = false ∧ s.eng.phase = .addr ∧ s.eng.dir = false ∧ WalkInv s ∧ s.tickSel &&& 0x39F#10 = 0x091#10) ∧
    (let s := slot .addr 8#4 true;
      let t : State := { s with eng := { s.eng with dir := true } };
      t.eng.phase = .addr ∧ t.eng.dir = true ∧ WalkInv t ∧ t.tickSel &&& 0x39F#10 = 0x091#10) ∧
    (let s := slot .write 8#4 true;
      let t : State := { s with latch := { s.latch with wcnt := 16#8 }, eng := { s.eng with byte := 14#8 } };
      t.eng.phase = .write ∧ t.eng.byte.toNat + 1 < t.latch.wcnt.toNat ∧ WalkInv t ∧
        t.tickSel &&& 0x39F#10 = 0x091#10) ∧
    (let s := slot .write 8#4 true;
      s.eng.phase = .write ∧ s.latch.wcnt.toNat ≤ s.eng.byte.toNat + 1 ∧ 0 < s.latch.rcnt.toNat ∧
        s.latch.rs = false ∧ WalkInv s ∧ s.tickSel &&& 0x39F#10 = 0x091#10) ∧
    (let s := slot .write 8#4 true;
      let t : State := { s with latch := { s.latch with rcnt := 0#8 } };
      t.latch.rcnt.toNat = 0 ∧ WalkInv t ∧ t.tickSel &&& 0x39F#10 = 0x091#10) ∧
    (let s := slot .write 8#4 true;
      let t : State := { s with latch := { s.latch with rs := true } };
      0 < t.latch.rcnt.toNat ∧ t.latch.rs = true ∧ WalkInv t ∧ t.tickSel &&& 0x39F#10 = 0x091#10) := by
  refine ⟨⟨rfl, ?_, rfl⟩, ⟨rfl, rfl, rfl, ?_, rfl⟩, ⟨rfl, rfl, ?_, rfl⟩, ⟨rfl, by decide, ?_, rfl⟩,
    ⟨rfl, by decide, by decide, rfl, ?_, rfl⟩, ⟨rfl, ?_, rfl⟩, by decide, rfl, ?_, rfl⟩ <;> constructor <;> decide
theorem witness_ReceivePollWaitsAndShifts :
    (let s : State := { hold .read 0#4 with inputs := [pin 2#3 false true] };
      s.uop &&& 0x3D1#10 = 0x300#10 ∧ (s.lines.scl && s.pins.scl) = false) ∧
    (let s : State := { hold .read 7#4 with inputs := [pin 2#3 true false] };
      s.uop &&& 0x3D1#10 = 0x300#10 ∧ (s.lines.scl && s.pins.scl) = true) := ⟨⟨rfl, rfl⟩, rfl, rfl⟩
theorem witness_EighthBitStoresTheByte : WalkInv (slot .read 7#4 true) ∧
    (slot .read 7#4 true).tickSel &&& 0x3D1#10 = 0x101#10 ∧ (slot .read 7#4 true).eng.bit + 1#4 = 8#4 ∧
    (slot .read 6#4 true).tickSel &&& 0x3D1#10 = 0x101#10 ∧ (slot .read 6#4 true).eng.bit + 1#4 ≠ 8#4 ∧
    WalkInv (slot .read 6#4 true) := by
  refine ⟨inv_tick_more.2.1.walk, rfl, rfl, rfl, by decide, ?_⟩
  constructor <;> decide
/-- With two bytes to read, byte 0 is not the last and byte 1 is. -/
theorem witness_MasterAckMicroOps : (slot .read 8#4 false).tickSel &&& 0x3DF#10 = 0x110#10 ∧
    (slot .read 8#4 true).tickSel &&& 0x3DF#10 = 0x111#10 ∧
    (slot .read 8#4 true).eng.byte.toNat + 1 ≠ (slot .read 8#4 true).latch.rcnt.toNat ∧
    (let s := slot .read 8#4 true;
      let t : State := { s with eng := { s.eng with byte := 1#8 } };
      t.tickSel &&& 0x3DF#10 = 0x111#10 ∧ t.eng.byte.toNat + 1 = t.latch.rcnt.toNat) := by decide
/-- STOP on the way to a read phase, and at the end of a transaction of each owner. -/
theorem witness_StopMicroOps : (slot .stop 0#4 false).tickSel &&& 0x3C1#10 = 0x140#10 ∧ LineInv (slot .stop 0#4 false) ∧
    (slot .stop 0#4 false).eng.wait = false ∧ (slot .stop 0#4 true).tickSel &&& 0x3C1#10 = 0x141#10 ∧
    LineInv (slot .stop 0#4 true) ∧ WalkInv (slot .stop 0#4 true) ∧
    (let s := slot .stop 0#4 true;
      let t : State := { s with eng := { s.eng with next := true, dir := true } };
      t.tickSel &&& 0x3C1#10 = 0x141#10 ∧ t.eng.next = true ∧ WalkInv t) ∧
    (let s := slot .stop 0#4 true;
      let t : State := { s with eng := { s.eng with owner := .seq, fail := true } };
      t.tickSel &&& 0x3C1#10 = 0x141#10 ∧ t.eng.next = false ∧ t.eng.owner = .seq) := by
  refine ⟨rfl, ?_, rfl, rfl, inv_tick_more.2.2.line, inv_tick_more.2.2.walk, ⟨rfl, rfl, ?_⟩, rfl, rfl, rfl⟩ <;>
    constructor <;> decide
theorem witness_FailedTransactionEntersError :
    (completed .reset false []).seq.state.active = true ∧ (completed .reset false []).seqop &&& 0x01#5 = 0x00#5 ∧
    (completed .read false []).seq.state.active = true ∧ (completed .read false []).seqop &&& 0x01#5 = 0x00#5 := by
  decide
theorem witness_FinishedWriteOrReadAdvancesTheSequencer : (completed .reset true []).eng.busy = false ∧
    (completed .reset true []).seqop &&& 0x1F#5 = 0x03#5 ∧ (completed .calibrate true []).eng.busy = false ∧
    (completed .calibrate true []).seqop &&& 0x1F#5 = 0x05#5 ∧ (completed .trigger true []).eng.busy = false ∧
    (completed .trigger true []).seqop &&& 0x1F#5 = 0x09#5 := by decide
/-- Status bytes 0x80 (busy), 0x08 (calibrated) and 0x77 (neither); the engine is not busy. -/
theorem witness_CalibrationPollBranches :
    (let s := completed .pollCal true [(0, 0x80#8)];
      s.seqop &&& 0x1F#5 = 0x07#5 ∧ s.eng.busy = false ∧ (s.rbuf.read 0).getLsbD s.cfg.busyBit.val = true) ∧
    (let s := completed .pollCal true [(0, 0x08#8)];
      s.seqop &&& 0x1F#5 = 0x07#5 ∧ s.eng.busy = false ∧ (s.rbuf.read 0).getLsbD s.cfg.busyBit.val = false ∧
        (s.rbuf.read 0).getLsbD 3 = true) ∧
    (let s := completed .pollCal true [(0, 0x77#8)];
      s.seqop &&& 0x1F#5 = 0x07#5 ∧ (s.rbuf.read 0).getLsbD s.cfg.busyBit.val = false ∧
        (s.rbuf.read 0).getLsbD 3 = false) := by decide
theorem witness_MeasurementPollBranches :
    (let s := completed .pollMeas true [(0, 0x80#8)];
      s.eng.busy = false ∧ s.seqop &&& 0x1F#5 = 0x0B#5 ∧ (s.rbuf.read 0).getLsbD s.cfg.busyBit.val = true) ∧
    (let s := completed .pollMeas true [];
      s.eng.busy = false ∧ s.seqop &&& 0x1F#5 = 0x0B#5 ∧ (s.rbuf.read 0).getLsbD s.cfg.busyBit.val = false) := by
  decide
theorem witness_ReadCompletionStoresTheReading :
    (completed .read true [(1, 0x80#8)]).seqop &&& 0x1F#5 = 0x0D#5 ∧
    (completed .read true [(1, 0x80#8)]).cfg.rawLayout = .reference := by decide

/-- The host's descriptor with `w` bytes to write and `r` to read, engine and sequencer idle. -/
def described (w r : Byte) : State :=
  { State.reset with txn := { addr := 0x38#7, wcnt := w, rcnt := r, rs := false } }

/-- The sequencer in the state `st` with nothing pending. -/
def sequencing (st : SeqState) : State := { State.reset with seq := { Seq.reset with state := st } }

/-- Each cause of R343. -/
theorem witness_violates : (slot .addr 0#4 false).violates .cmdEngBegin ∧ (sequencing .trigger).violates .cmdEngBegin ∧
    (described 17#8 0#8).violates .cmdEngBegin ∧ (described 0#8 17#8).violates .cmdEngBegin ∧
    (slot .addr 0#4 false).violates .cmdSeqInit ∧ (completed .reset true []).violates .cmdSeqInit ∧
    (sequencing .read).violates .cmdSeqInit ∧
    State.violates { slot .addr 0#4 false with seq := { Seq.reset with state := .idle } } .cmdSeqRequestRead ∧
    State.reset.violates (.cmdReserved 3#2) := by
  refine ⟨.inl ⟨rfl, by decide⟩, .inl ⟨rfl, by decide⟩, .inl ⟨rfl, by decide⟩, .inl ⟨rfl, by decide⟩,
    .inr (.inl ⟨rfl, by decide⟩), .inr (.inl ⟨rfl, by decide⟩), .inr (.inl ⟨rfl, by decide⟩),
    .inr (.inr (.inl ⟨rfl, rfl, rfl⟩)), .inr (.inr (.inr ⟨_, rfl⟩))⟩
/-- The largest counts, and both counts 0. -/
theorem witness_EngineBeginCommand : ¬(described 16#8 16#8).violates .cmdEngBegin ∧
    ((described 16#8 16#8).txn.wcnt ≠ 0#8 ∨ (described 16#8 16#8).txn.rcnt ≠ 0#8) ∧
    ¬State.reset.violates .cmdEngBegin ∧ State.reset.txn.wcnt = 0#8 ∧ State.reset.txn.rcnt = 0#8 := by
  simp only [State.violates]; simp; decide
theorem witness_SequencerInitCommand : ¬State.reset.violates .cmdSeqInit ∧ ¬(sequencing .error).violates .cmdSeqInit ∧
    ¬(sequencing .idle).violates .cmdSeqInit := by
  simp only [State.violates]; simp; decide
theorem witness_RequestReadCommand : (sequencing .error).seq.state ≠ .idle ∧ State.reset.seq.state ≠ .idle ∧
    (sequencing .idle).seq.state = .idle ∧ (sequencing .idle).eng.busy = false ∧
    (let s : State := { slot .addr 0#4 false with seq := { Seq.reset with state := .idle } };
      s.seq.state = .idle ∧ s.eng.busy = true) := by decide
theorem witness_RegisterReads : State.reset.cfg = Params.reference := rfl
theorem witness_StatusReadShowsTheState : State.reset = State.resetWith Params.reference := rfl
/-- The word indices at the ends of each range. -/
theorem witness_InertAccesses : unmappedIdx State.reset.cfg 12#6 = true ∧ unmappedIdx State.reset.cfg 15#6 = true ∧
    unmappedIdx State.reset.cfg 48#6 = true ∧ unmappedIdx State.reset.cfg 63#6 = true ∧
    unmappedIdx (State.resetWith small).cfg 19#6 = true ∧ readOnlyIdx State.reset.cfg 1#6 = true ∧
    readOnlyIdx State.reset.cfg 6#6 = true ∧ readOnlyIdx State.reset.cfg 11#6 = true ∧
    readOnlyIdx State.reset.cfg 32#6 = true ∧ readOnlyIdx State.reset.cfg 47#6 = true := by decide
theorem witness_WriteBufferWrite : (15#4 : BitVec 4).toNat < State.reset.cfg.wmax ∧
    (2#4 : BitVec 4).toNat < (State.resetWith small).cfg.wmax ∧
    (State.resetWith small).cfg.wmax ≤ (3#4 : BitVec 4).toNat := by decide
theorem witness_DescriptorWrites : exec (.wrTxnAddr 0xB8#32) State.reset = .next (described 0#8 0#8) ∧
    (∃ t, exec (.wrTxnWcnt 0x1FF#32) State.reset = .next t ∧ t.txn.wcnt = 0xFF#8) ∧
    (∃ t, exec (.wrTxnRcnt 6#32) State.reset = .next t ∧ t.txn.rcnt = 6#8) ∧
    (∃ t, exec (.wrTxnFlags 0xFFFFFFFF#32) State.reset = .next t ∧ t.txn.rs = true) :=
  ⟨rfl, ⟨_, rfl, rfl⟩, ⟨_, rfl, rfl⟩, _, rfl, rfl⟩
theorem witness_ReadsHaveNoSideEffect : (0x0100000000#39 : BitVec 39).getLsbD 38 = false ∧
    exec (.wrTxnAddr 0x38#32) State.reset = .next (described 0#8 0#8) ∧
    exec (.wrWbuf 0#4 0xBA#32) State.reset = .next { State.reset with wbuf := [(0, 0xBA#8)] } ∧
    (0x4000000001#39 : BitVec 39) &&& 0x7F00000000#39 = 0x4000000000#39 := ⟨rfl, rfl, rfl, rfl⟩
theorem witness_LatchesCannotBeRead : (0x2F00000000#39 : BitVec 39).getLsbD 38 = false := rfl

/-- A HOST step of CMD.ENG_BEGIN from the descriptor, and one of a read while the engine is busy. -/
theorem witness_OnlyBeginAndResetWriteTheLatches :
    (∃ t, step { described 1#8 0#8 with inputs := [access 0x4000000001#39] } = .next t ∧
      t.latch ≠ (described 1#8 0#8).latch) ∧
    (∃ t, step { slot .addr 0#4 false with inputs := [access 0x0100000000#39] } = .next t ∧
      (slot .addr 0#4 false).eng.busy = true) := ⟨⟨_, rfl, by decide⟩, _, rfl, rfl⟩
theorem witness_ViolIsSticky :
    (∃ t, step { State.reset with viol := true, inputs := [access 0x4000000000#39] } = .next t ∧ t.viol = true) ∧
    (∃ t, step { State.reset with viol := true, inputs := [pin 4#3 true true] } = .next t ∧ t.viol = false) ∧
    (∃ t, step { State.reset with inputs := [access 0x4000000004#39] } = .next t ∧ t.viol = true) :=
  ⟨⟨_, rfl, rfl⟩, ⟨_, rfl, rfl⟩, _, rfl, rfl⟩
theorem witness_RefusedCommandChangesOnlyViol : Instr.cmdNop ≠ .evHost ∧ ¬State.reset.violates .cmdNop ∧
    exec .cmdNop { State.reset with viol := true } = .next { State.reset with viol := true } := by
  refine ⟨by decide, ?_, rfl⟩; simp [State.violates]
theorem witness_LinesFollowTheBusHistory :
    (∃ t, step { described 1#8 0#8 with inputs := [access 0x4000000001#39] } = .next t) ∧
    (∃ t, step (completed .reset true []) = .next t ∧ (completed .reset true []).pins.ev = 3#3) ∧
    (∃ t, step { State.reset with inputs := [pin 4#3 true true] } = .next t) ∧
    (∃ t, step { hold .addr 8#4 with inputs := [pin 2#3 true true] } = .next t) :=
  ⟨⟨_, rfl⟩, ⟨_, rfl, rfl⟩, ⟨_, rfl⟩, _, rfl⟩
theorem witness_ReadingChangesOnlyAtReadCompletion :
    (∃ t, step (completed .read true [(1, 0x80#8)]) = .next t ∧ (completed .read true [(1, 0x80#8)]).pins.ev ≠ 4#3 ∧
      t.seq.hum ≠ (completed .read true [(1, 0x80#8)]).seq.hum) ∧
    (∃ t, step { slot .addr 0#4 false with inputs := [pin 1#3 true true] } = .next t) :=
  ⟨⟨_, rfl, by decide, by decide⟩, _, rfl⟩
theorem witness_ErrorIsTerminal : (sequencing .error).seq.state = .error ∧
    (∃ t, step { sequencing .error with inputs := [pin 4#3 true true] } = .next t) ∧
    (∃ t, step { sequencing .error with inputs := [access 0x4000000002#39] } = .next t) ∧
    (∃ t, step { sequencing .error with inputs := [access 0x4000000003#39] } = .next t) :=
  ⟨rfl, ⟨_, rfl⟩, ⟨_, rfl⟩, _, rfl⟩
theorem witness_ConversionByShiftsIsMonotone :
    (0x00068#20 : Raw).toNat ≤ (0x00069#20 : Raw).toNat ∧ (0x7FFFF#20 : Raw).toNat ≤ (0xFFFFF#20 : Raw).toNat := by
  decide
theorem witness_StepKeepsTheInvariant :
    (Inv (completed .reset true []) ∧ ∃ t, step (completed .reset true []) = .next t) ∧
    (Inv (slot .addr 0#4 false) ∧ (slot .addr 0#4 false).eng.armed = true) ∧
    (Inv (hold .addr 8#4) ∧ (hold .addr 8#4).eng.wait = true) :=
  ⟨⟨inv_dispatch.1, _, rfl⟩, ⟨inv_tick, rfl⟩, inv_poll.1, rfl⟩
/-- A state for each of the three outcomes: a next state, an event that is not enabled, an EV code that names none. -/
theorem witness_InvariantStatesNeverFault : Inv State.reset ∧ Inv (slot .stop 0#4 true) ∧
    (let s : State := { State.reset with inputs := [pin 4#3 true true] }; Inv s ∧ ∃ t, step s = .next t) ∧
    (let s : State := { State.reset with inputs := [pin 1#3 true true] };
      Inv s ∧ step s = .refused (.eventNotEnabled "EV.TICK")) ∧
    (let s : State := { State.reset with inputs := [pin 5#3 true true] }; Inv s ∧ step s = .refused .noSuchEvent) := by
  refine ⟨inv_reset, inv_tick_more.2.2, ⟨?_, _, rfl⟩, ⟨?_, rfl⟩, ?_, rfl⟩ <;>
    refine ⟨?_, ?_, ?_, ?_, ?_, .inl rfl⟩ <;> constructor <;> decide

/-- A state at the start of a byte, sixteen TICKs supplied. -/
def sending : State := { slot .write 0#4 false with inputs := List.replicate 16 (pin 1#3 true true) }

theorem witness_TransmittedByteGoesMsbFirst : ErrInv sending ∧ sending.eng.phase = .write ∧ sending.eng.bit = 0#4 ∧
    sending.eng.half = false ∧ sending.eng.armed = true ∧
    (sending.inputs.take 16).map Pins.ev = List.replicate 16 1#3 := ⟨.inl rfl, rfl, rfl, rfl, rfl, rfl⟩

/-- A state at the start of a received byte, the rounds of the byte 0x08 supplied. -/
def receiving : State :=
  { slot .read 0#4 false with
    inputs := (List.range 8).flatMap (fun k => [pin 1#3 true true, pin 2#3 true (k == 4), pin 1#3 true true]) }

theorem witness_ReceivedByteIsAssembledMsbFirst : ErrInv receiving ∧ receiving.eng.phase = .read ∧
    receiving.eng.bit = 0#4 ∧ receiving.eng.half = false ∧ receiving.eng.armed = true ∧ receiving.eng.wait = false ∧
    receiving.eng.byte.toNat < receiving.cfg.rmax ∧
    (receiving.inputs.take 24).map Pins.ev = (List.replicate 8 [1#3, 2#3, 1#3]).flatten ∧
    (∀ k < 8, ∀ p, receiving.inputs[3 * k + 1]? = some p → p.scl = true ∧ p.sda = (0x08#8 : Byte).getLsbD (7 - k)) :=
  ⟨.inl rfl, rfl, rfl, rfl, rfl, rfl, by decide, by decide, by
    intro k hk p hp
    have h : ∀ k < 8, ∃ p, receiving.inputs[3 * k + 1]? = some p ∧ p.scl = true ∧
        p.sda = (0x08#8 : Byte).getLsbD (7 - k) := by
      intro k hk
      match k, hk with
      | 0, _ => exact ⟨_, rfl, rfl, rfl⟩
      | 1, _ => exact ⟨_, rfl, rfl, rfl⟩
      | 2, _ => exact ⟨_, rfl, rfl, rfl⟩
      | 3, _ => exact ⟨_, rfl, rfl, rfl⟩
      | 4, _ => exact ⟨_, rfl, rfl, rfl⟩
      | 5, _ => exact ⟨_, rfl, rfl, rfl⟩
      | 6, _ => exact ⟨_, rfl, rfl, rfl⟩
      | 7, _ => exact ⟨_, rfl, rfl, rfl⟩
      | k + 8, h => omega
    obtain ⟨q, hq, h1⟩ := h k hk
    rw [hp] at hq
    cases hq
    exact h1⟩

/-- The ACK slot's second half, `n` TICKs supplied, NACK sampled or not, repeated start or not. -/
def answered (ph : Phase) (nack rs : Bool) (n : Nat) : State :=
  let s := slot ph 8#4 true
  { s with
    eng := { s.eng with nack := nack }
    latch := { s.latch with rs := rs }
    inputs := List.replicate n (pin 1#3 true true) }

theorem witness_NackStopsAndFails :
    (let s := answered .addr true false 3;
      ErrInv s ∧ s.eng.phase = .addr ∧ s.eng.bit = 8#4 ∧ s.eng.half = true ∧ s.eng.nack = true ∧ s.eng.armed = true ∧
        (s.inputs.take 3).map Pins.ev = List.replicate 3 1#3) ∧
    (answered .write true false 3).eng.phase = .write :=
  ⟨⟨.inl rfl, rfl, rfl, rfl, rfl, rfl, rfl⟩, rfl⟩
theorem witness_ReadPhaseFollowsTheWritePhase :
    (let s := answered .write false true 3;
      ErrInv s ∧ s.eng.phase = .write ∧ s.eng.bit = 8#4 ∧ s.eng.half = true ∧ s.eng.nack = false ∧
        s.eng.fail = false ∧ s.eng.rs = false ∧ s.eng.next = false ∧ s.eng.armed = true ∧
        s.latch.wcnt.toNat ≤ s.eng.byte.toNat + 1 ∧ s.latch.rcnt ≠ 0#8 ∧ s.latch.rs = true ∧
        (s.inputs.take 3).map Pins.ev = List.replicate 3 1#3) ∧
    (let s := answered .write false false 4;
      s.latch.wcnt.toNat ≤ s.eng.byte.toNat + 1 ∧ s.latch.rcnt ≠ 0#8 ∧ s.latch.rs = false ∧
        (s.inputs.take 4).map Pins.ev = List.replicate 4 1#3) :=
  ⟨⟨.inl rfl, rfl, rfl, rfl, rfl, rfl, rfl, rfl, rfl, by decide, by decide, rfl, rfl⟩, by decide, by decide, rfl, rfl⟩
theorem witness_StretchedHoldHasNoTimeout :
    (let s : State := { hold .addr 8#4 with inputs := List.replicate 3 (pin 2#3 false true) };
      Inv s ∧ s.eng.wait = true ∧
        (s.inputs.take 3).map (fun p => (p.ev, p.scl)) = List.replicate 3 (2#3, false)) := by
  refine ⟨⟨?_, ?_, ?_, ?_, ?_, .inl rfl⟩, rfl, rfl⟩ <;> constructor <;> decide

end Sys2Proof.Tests
end

section
/-! PROOFS. The family of spec/00_scope.md: a step is `exec` of the event that its inputs name (R8, R111), only HOST and
RESET have a step at the end of a run (R17), and the line outputs are the bus event history applied in order (R12). -/

namespace Sys2Proof.Machine

/-! ### The step, by its event -/

/-- The EV code that decodes to an event is the event's own word (R111). -/
theorem encode_of_decodeEv {w : BitVec 3} {i : Instr} (h : decodeEv w = some i) : encode i = .ev w := by
  have hall : ∀ w : BitVec 3, ∀ i ∈ decodeEv w, encode i = .ev w := by decide
  exact hall w i h

/-- Where the inputs name an event and no reserved code is held, the step is that event. -/
theorem step_of_decodeEv {s : State} {i : Instr} (hr : s.reservedHeld = false) (hi : decodeEv s.pins.ev = some i) :
    step s = afterStep (exec i s) := by
  simp [step, hr, hi]

/-- R47: a code that is ever written is not reserved. -/
theorem ErrInv.reservedHeld_eq_false {s : State} (h : ErrInv s) : s.reservedHeld = false := by
  rcases h with h | h | h <;> simp [State.reservedHeld, h]

/-- R160: a TICK is enabled only while the engine is armed. -/
theorem exec_evTick_of_not_armed {s : State} (h : s.eng.armed = false) :
    exec .evTick s = .refused (.eventNotEnabled "EV.TICK") := by
  simp [exec, execEvTick, h]

/-- R161: a POLL is enabled only while the engine waits. -/
theorem exec_evPoll_of_not_wait {s : State} (h : s.eng.wait = false) :
    exec .evPoll s = .refused (.eventNotEnabled "EV.POLL") := by
  simp [exec, execEvPoll, h]

/-- R240: a DISPATCH is enabled only while a completion is pending. -/
theorem exec_evDispatch_of_not_cplPend {s : State} (h : s.seq.cplPend = false) :
    exec .evDispatch s = .refused (.eventNotEnabled "EV.DISPATCH") := by
  simp [exec, execEvDispatch, h]

/-- R290: every HOSTOP word is an access that answers a next state. -/
theorem performHostOp_decodeHostOp_next (p : Params) (w : BitVec 39) (s : State) :
    ∃ t, performHostOp (decodeHostOp p w) s = .next t := by
  unfold decodeHostOp decodeWrite decodeRead decodeCmd
  repeat' split
  all_goals exact ⟨_, rfl⟩

/-- Settles O8: a step is `exec` of the decoded event, and a next state has used the inputs up. -/
theorem stepRunsTheDecodedEvent : Obligations.StepRunsTheDecodedEvent := by
  intro s i hr hi
  rw [step_of_decodeEv hr hi]
  cases exec i s <;> rfl

/-- Settles O13: at the end of a run TICK, POLL and DISPATCH are refused as not enabled, while HOST and RESET answer a
next state. -/
theorem onlyHostAndResetAtTheEnd : Obligations.OnlyHostAndResetAtTheEnd := by
  rintro s herr ⟨-, harmed, hwait, hpend⟩
  have hstep {w : BitVec 3} {i : Instr} (hw : s.pins.ev = w) (hi : decodeEv w = some i) :
      step s = afterStep (exec i s) :=
    step_of_decodeEv herr.reservedHeld_eq_false (hw ▸ hi)
  constructor
  · rintro (hev | hev | hev)
    · exact ⟨_, by rw [hstep hev rfl, exec_evTick_of_not_armed harmed]; rfl⟩
    · exact ⟨_, by rw [hstep hev rfl, exec_evPoll_of_not_wait hwait]; rfl⟩
    · exact ⟨_, by rw [hstep hev rfl, exec_evDispatch_of_not_cplPend hpend]; rfl⟩
  · rintro (hev | hev)
    · obtain ⟨t, ht⟩ := performHostOp_decodeHostOp_next s.cfg s.pins.host s
      exact ⟨_, by rw [hstep hev rfl, afterStep_next]; exact ⟨t, ht, rfl⟩⟩
    · exact ⟨_, by rw [hstep hev rfl, afterStep_next]; exact ⟨_, rfl, rfl⟩⟩

/-! ### The line events of an operation -/

/-- R12: `t` is reached from `s` by the line events `new`, which the history records and the line outputs follow. -/
structure Drives (s : State) (new : List LineEvent) (t : State) : Prop where
  bus : t.bus = s.bus ++ new
  lines : t.lines = new.foldl LineEvent.apply s.lines

/-- Where neither the history nor an output changed, no event happened. -/
theorem Drives.nil {s t : State} (hb : t.bus = s.bus) (hl : t.lines = s.lines) : Drives s [] t :=
  ⟨by simpa using hb, hl⟩

/-- `Drives` looks at the history and the line outputs only. -/
theorem Drives.congr {s s' t t' : State} {new : List LineEvent} (h : Drives s new t)
    (hsb : s'.bus = s.bus) (hsl : s'.lines = s.lines) (htb : t'.bus = t.bus) (htl : t'.lines = t.lines) :
    Drives s' new t' :=
  ⟨by rw [htb, hsb, h.bus], by rw [htl, hsl, h.lines]⟩

/-- R162 to R175: the line events of a micro-operation in state `s`, in their order. -/
def microEvents (s : State) : Instr → List LineEvent
  | .uStartRs | .uTxAckH0 | .uRxBitH0 => [.setSda true, .setScl true]
  | .uStart => [.setSda false, .setScl false]
  | .uTxBitH0 => [.setSda (msbFirst s.eng.scratch s.eng.bit), .setScl true]
  | .uTxBitH1 | .uTxAckH1 | .uRxBitH1 | .uRxMackH1 => [.setScl false]
  | .uTxAckPoll | .uRxBitPoll =>
    if s.clockLevel then [.readScl true, .readSda s.dataLevel] else [.readScl false]
  | .uRxMackH0 => [.setSda s.lastByte, .setScl true]
  | .uStopH0 => [.setSda false, .setScl true]
  | .uStopH1 => [.setSda true]
  | _ => []

/-- R392: no micro-operation makes more than two line events. -/
theorem microEvents_length_le (s : State) (i : Instr) : (microEvents s i).length ≤ 2 := by
  unfold microEvents
  cases s.clockLevel <;> split <;> simp

/-- R171: storing a received byte is no line event. -/
theorem State.storeReceived_drives {s t : State} (h : s.storeReceived = some t) : Drives s [] t := by
  unfold storeReceived at h
  split at h
  · cases h; exact .nil rfl rfl
  · cases h

/-- R162 to R175: a micro-operation makes its line events and moves the lines by them alone. -/
theorem performUop_drives {i : Instr} {s t : State} (h : performUop i s = .next t) :
    Drives s (microEvents s i) t := by
  cases i <;>
    simp only [performUop, execUStartRs, execUStart, execUTxBitH0, execUTxBitH1, execUTxAckH0, execUTxAckPoll,
      execUTxAckH1, execURxBitH0, execURxBitPoll, execURxBitH1, execURxMackH0, execURxMackH1, execUStopH0,
      execUStopH1, microOp_next, reduceCtorEq] at h <;>
    obtain ⟨-, h⟩ := h
  case uTxAckPoll | uRxBitPoll =>
    cases h
    cases hc : s.clockLevel <;> exact ⟨by simp [microEvents, hc], by simp [microEvents, hc, LineEvent.apply]⟩
  case uTxAckH1 =>
    obtain ⟨e, -, rfl⟩ := Option.map_eq_some_iff.1 h
    exact ⟨rfl, rfl⟩
  case uRxBitH1 =>
    split at h
    · have hd := State.storeReceived_drives h
      exact ⟨by rw [hd.bus]; simp [microEvents], by rw [hd.lines]; rfl⟩
    · cases h; exact ⟨rfl, rfl⟩
  case uStopH1 =>
    cases h
    cases s.eng.next <;> exact ⟨rfl, rfl⟩
  -- Every other micro-operation has one outcome.
  all_goals
    cases h
    exact ⟨by simp [microEvents], rfl⟩

/-- `t` is reached from `s` by no line event, or by the two of a BEGIN: the START condition (R150, R163). -/
def DrivesAtMostBegin (s t : State) : Prop := Drives s [] t ∨ Drives s [.setSda false, .setScl false] t

/-- R150, R151: BEGIN makes the START condition, or nothing where both counts are 0. -/
theorem State.engineBegin_drives (s : State) (t : Txn) (o : Owner) : DrivesAtMostBegin s (s.engineBegin t o) := by
  by_cases h : t.wcnt = 0#8 ∧ t.rcnt = 0#8
  · rw [engineBegin_zero o h.1 h.2]; exact .inl (.nil rfl rfl)
  · rw [engineBegin_start o (not_and_or.1 h)]; exact .inr ⟨rfl, rfl⟩

/-- R231, R235: entering an issuing state makes the START condition of its transaction. -/
theorem State.enter_drives (s : State) (k : Issuing) : Drives s [.setSda false, .setScl false] (s.enter k) := by
  rw [enter_begun]; exact ⟨rfl, rfl⟩

/-- R236: SeqInit makes the START condition of the RESET transaction. -/
theorem State.seqInit_drives (s : State) : Drives s [.setSda false, .setScl false] s.seqInit :=
  (State.enter_drives { s with seq := { s.seq with err := .none, isNew := false } } .reset).congr rfl rfl rfl rfl

/-- R237: SeqRequestRead makes the START condition of the trigger transaction. -/
theorem State.seqRequestRead_drives (s : State) : Drives s [.setSda false, .setScl false] s.seqRequestRead :=
  (State.enter_drives { s with seq := { s.seq with isNew := false } } .trigger).congr rfl rfl rfl rfl

/-- R290, R300 to R331: of the host's accesses only a command makes line events, those of its BEGIN. -/
theorem performHostOp_drives {i : Instr} {s t : State} (h : performHostOp i s = .next t) :
    DrivesAtMostBegin s t := by
  cases i
  case cmdEngBegin =>
    cases h
    iterate 3 (split; · exact .inl (.nil rfl rfl))
    exact s.engineBegin_drives _ _
  case cmdSeqInit =>
    cases h
    split
    · exact .inl (.nil rfl rfl)
    · exact .inr s.seqInit_drives
  case cmdSeqRequestRead =>
    cases h
    iterate 2 (split; · exact .inl (.nil rfl rfl))
    exact .inr s.seqRequestRead_drives
  case wrWbuf =>
    cases h
    split <;> exact .inl (.nil rfl rfl)
  -- Every other access leaves the lines alone; what is no access has no next state.
  all_goals (cases h <;> exact .inl (.nil rfl rfl))

/-- R235: issuing from a dispatch operation makes the START condition. -/
theorem issueStep_drives {k : Issuing} {s t : State} (h : issueStep k s = .next t) : DrivesAtMostBegin s t := by
  obtain ⟨-, rfl⟩ := issueStep_next.1 h
  exact .inr (s.enter_drives k)

/-- R241 to R247: a dispatch operation makes no line event but those of the transaction it issues. -/
theorem performSeqOp_drives {i : Instr} {s t : State} (h : performSeqOp i s = .next t) :
    DrivesAtMostBegin s t := by
  cases i <;>
    simp only [performSeqOp, execSFail, execSResetOk, execSCalOk, execSPollcalOk, execSTrigOk, execSPollmeasOk,
      execSReadOk, seqOp_next, reduceCtorEq] at h <;>
    obtain ⟨-, h⟩ := h
  case sFail | sReadOk => cases h; exact .inl (.nil rfl rfl)
  case sResetOk | sCalOk | sTrigOk => exact issueStep_drives h
  case sPollcalOk =>
    split at h
    · exact issueStep_drives h
    · split at h
      · exact issueStep_drives h
      · cases h; exact .inl (.nil rfl rfl)
  case sPollmeasOk => split at h <;> exact issueStep_drives h

/-! ### The line events of an event -/

/-- R160: a TICK makes the line events of the micro-operation it selects. -/
theorem execEvTick_drives {s t : State} (h : execEvTick s = .next t) : ∃ new, Drives s new t ∧ new.length ≤ 2 := by
  obtain ⟨-, i, -, hi⟩ := execEvTick_next h
  exact ⟨_, (performUop_drives hi).congr rfl rfl rfl rfl, microEvents_length_le _ i⟩

/-- R161: a POLL makes the line events of the micro-operation it selects. -/
theorem execEvPoll_drives {s t : State} (h : execEvPoll s = .next t) : ∃ new, Drives s new t ∧ new.length ≤ 2 := by
  obtain ⟨-, i, -, hi⟩ := execEvPoll_next h
  exact ⟨_, performUop_drives hi, microEvents_length_le _ i⟩

/-- R240: a DISPATCH makes at most the line events of a BEGIN. -/
theorem execEvDispatch_drives {s t : State} (h : execEvDispatch s = .next t) : DrivesAtMostBegin s t := by
  obtain ⟨-, i, -, hi⟩ := execEvDispatch_next h
  exact (performSeqOp_drives hi).imp (·.congr rfl rfl rfl rfl) (·.congr rfl rfl rfl rfl)

/-- R370: a RESET makes the line event RST. -/
theorem execEvReset_drives {s t : State} (h : execEvReset s = .next t) : Drives s [.rst] t := by
  cases h; exact ⟨rfl, rfl⟩

/-- What the claim says of a step's line events, for the EV code `w`. -/
def StepEvents (w : BitVec 3) (new : List LineEvent) : Prop :=
  new.length ≤ 2 ∧ (w = 0#3 ∨ w = 3#3 → new = [] ∨ new = [.setSda false, .setScl false]) ∧ (w = 4#3 → new = [.rst])

/-- R12, R370, R392: the line events of an event, by its EV code. -/
theorem exec_event_drives {w : BitVec 3} {i : Instr} {s t : State} (hi : decodeEv w = some i)
    (h : exec i s = .next t) : ∃ new, Drives s new t ∧ StepEvents w new := by
  have hw := encode_of_decodeEv hi
  rcases decodeEv_cases hi with rfl | rfl | rfl | rfl | rfl <;> obtain rfl := OpWord.ev.inj hw
  · rcases performHostOp_drives h with hd | hd <;> exact ⟨_, hd, by simp [StepEvents]⟩
  · obtain ⟨new, hd, hlen⟩ := execEvTick_drives h
    exact ⟨new, hd, by simp [StepEvents, hlen]⟩
  · obtain ⟨new, hd, hlen⟩ := execEvPoll_drives h
    exact ⟨new, hd, by simp [StepEvents, hlen]⟩
  · rcases execEvDispatch_drives h with hd | hd <;> exact ⟨_, hd, by simp [StepEvents]⟩
  · exact ⟨_, execEvReset_drives h, by simp [StepEvents]⟩

/-- Settles O47: every step's event drives the lines by the events it records. -/
theorem linesFollowTheBusHistory : Obligations.LinesFollowTheBusHistory := by
  intro s t h
  obtain ⟨-, i, u, hi, hu, rfl⟩ := step_next h
  obtain ⟨new, hd, hev⟩ := exec_event_drives hi hu
  exact ⟨new, hd.bus, hd.lines, hev⟩

end Sys2Proof.Machine
end

section
/-! PROOFS. What a step can do, said once: the effects of a host access (spec/42_host_port.md R290), of a dispatch
operation (spec/41_sequencer.md R240) and of an event (spec/30_encoding.md R111). -/

namespace Sys2Proof.Machine

/-! ### What an access of the host can do -/

/-- R290, R300 to R331: what the access `i` of the host can do to the state `s`. -/
inductive HostEffect (i : Instr) (s : State) : State → Prop where
  /-- Nothing (R300, R151, R303, R329 to R331). -/
  | same : HostEffect i s s
  /-- A read returns a value (R86). -/
  | answer (v : Word) : HostEffect i s (s.hostReturn v)
  /-- A command is refused (R342, R343). -/
  | refusal (c : ViolCause) (hv : s.violates i) : HostEffect i s (s.raiseViol c)
  /-- A descriptor register is written (R325 to R328). -/
  | descriptor (d : Descriptor) : HostEffect i s { s with txn := d }
  /-- A byte of the write buffer is written (R329). -/
  | buffer (j : Nat) (b : Byte) (hj : j < s.cfg.wmax) : HostEffect i s { s with wbuf := s.wbuf.write j b }
  /-- The host's transaction begins (R301). -/
  | hostBegin (hbusy : s.eng.busy = false) (hact : s.seq.state.active = false)
      (hw : s.txn.wcnt.toNat ≤ s.cfg.wmax) (hr : s.txn.rcnt.toNat ≤ s.cfg.rmax)
      (hne : s.txn.wcnt ≠ 0#8 ∨ s.txn.rcnt ≠ 0#8) : HostEffect i s (s.begun s.hostTxn .host)
  /-- The sequencer leaves an inactive state and begins a command (R236, R237). -/
  | seqBegin (k : Issuing) (e : ErrKind) (hbusy : s.eng.busy = false) (hact : s.seq.state.active = false)
      (he : e = .none ∨ e = s.seq.err) :
      HostEffect i s (({ s with seq := { s.seq with err := e, isNew := false, state := k.toState } } : State).begun
        (storeTxn s.cfg s.draws k) .seq)

/-- R301: what CMD.ENG_BEGIN does. -/
theorem execCmdEngBegin_effect {s t : State} (h : execCmdEngBegin s = .next t) : HostEffect .cmdEngBegin s t := by
  cases h
  split
  · next hb => exact .refusal _ (.inl ⟨rfl, .inl hb⟩)
  split
  · next ha => exact .refusal _ (.inl ⟨rfl, .inr (.inl ha)⟩)
  split
  · next hc => exact .refusal _ (.inl ⟨rfl, .inr (.inr hc)⟩)
  next hb ha hc =>
    obtain ⟨hw, hr⟩ := not_or.1 hc
    by_cases hz : s.txn.wcnt = 0#8 ∧ s.txn.rcnt = 0#8
    · rw [State.engineBegin_zero (t := s.hostTxn) .host hz.1 hz.2]; exact .same
    · have hne := not_and_or.1 hz
      rw [State.engineBegin_begun s (t := s.hostTxn) .host hne]
      exact .hostBegin (by simpa using hb) (by simpa using ha) (not_lt.1 hw) (not_lt.1 hr) hne

/-- R302: what CMD.SEQ_INIT does. -/
theorem execCmdSeqInit_effect {s t : State} (h : execCmdSeqInit s = .next t) : HostEffect .cmdSeqInit s t := by
  cases h
  split
  · next hv => exact .refusal _ (.inr (.inl ⟨rfl, by simpa [or_assoc] using hv⟩))
  · next hv =>
    obtain ⟨⟨hb, -⟩, ha⟩ : (s.eng.busy = false ∧ s.seq.cplPend = false) ∧ s.seq.state.active = false := by
      simpa using hv
    rw [State.seqInit, State.enter_begun]
    exact .seqBegin .reset .none hb ha (.inl rfl)

/-- R303: what CMD.SEQ_REQUEST_READ does. -/
theorem execCmdSeqRequestRead_effect {s t : State} (h : execCmdSeqRequestRead s = .next t) :
    HostEffect .cmdSeqRequestRead s t := by
  cases h
  split
  · exact .same
  split
  · next hst hb => exact .refusal _ (.inr (.inr (.inl ⟨rfl, not_not.1 hst, hb⟩)))
  next hst hb =>
    rw [State.seqRequestRead, State.enter_begun]
    exact .seqBegin .trigger s.seq.err (by simpa using hb) (by rw [not_not.1 hst]; rfl) (.inr rfl)

/-- R329: what WR.WBUF does. -/
theorem execWrWbuf_effect {j : BitVec 4} {data : Word} {s t : State} (h : execWrWbuf j data s = .next t) :
    HostEffect (.wrWbuf j data) s t := by
  cases h
  split
  · next hj => exact .buffer _ _ hj
  · exact .same

/-- R290: every access of the host has one of the effects. -/
theorem performHostOp_effect {i : Instr} {s t : State} (h : performHostOp i s = .next t) : HostEffect i s t := by
  cases i
  case cmdEngBegin => exact execCmdEngBegin_effect h
  case cmdSeqInit => exact execCmdSeqInit_effect h
  case cmdSeqRequestRead => exact execCmdSeqRequestRead_effect h
  case wrWbuf => exact execWrWbuf_effect h
  case cmdReserved op => cases h; exact .refusal _ (.inr (.inr (.inr ⟨op, rfl⟩)))
  case cmdNop | wrRo | wrUnmapped => cases h; exact .same
  case wrTxnAddr | wrTxnWcnt | wrTxnRcnt | wrTxnFlags => cases h; exact .descriptor _
  -- What is left is a read, or no access of the host.
  all_goals (cases h <;> exact .answer _)

/-! ### What a dispatch operation can do -/

/-- R241 to R247: what a dispatch operation can do to the state `s`, in which the completion is consumed. -/
inductive DispatchEffect (s : State) : State → Prop where
  /-- The sequencer enters ERROR (R241, R244, R345). -/
  | fault (k : ErrKind) (hk : k = .deviceNotPresent ∨ k = .calibrationFailed) : DispatchEffect s (s.seqFault k)
  /-- The next command begins (R231, R235). -/
  | issue (k : Issuing) (hbusy : s.eng.busy = false) : DispatchEffect s (s.enter k)
  /-- The reading is stored (R247). -/
  | reading (hsel : decodeSeqOp s.seqop = some .sReadOk) : DispatchEffect s { s with seq := { s.seq with
      hum := humWord (rawValues s.cfg s.rbuf.read).1
      temp := tempWord (rawValues s.cfg s.rbuf.read).2
      ts := s.pins.now
      valid := true
      isNew := true
      state := .idle } }

/-- R235: issuing a command. -/
theorem issueStep_effect {k : Issuing} {s t : State} (h : issueStep k s = .next t) : DispatchEffect s t := by
  obtain ⟨hb, rfl⟩ := issueStep_next.1 h
  exact .issue k hb

/-- R241 to R247: every dispatch operation has one of the effects. -/
theorem performSeqOp_effect {i : Instr} {s t : State} (h : performSeqOp i s = .next t) : DispatchEffect s t := by
  cases i <;>
    simp only [performSeqOp, execSFail, execSResetOk, execSCalOk, execSPollcalOk, execSTrigOk, execSPollmeasOk,
      execSReadOk, seqOp_next, reduceCtorEq] at h <;>
    obtain ⟨hsel, h⟩ := h
  case sFail => cases h; exact .fault _ (.inl rfl)
  case sReadOk => cases h; exact .reading hsel
  case sResetOk | sCalOk | sTrigOk => exact issueStep_effect h
  case sPollmeasOk => split at h <;> exact issueStep_effect h
  case sPollcalOk =>
    split at h
    · exact issueStep_effect h
    split at h
    · exact issueStep_effect h
    · cases h; exact .fault _ (.inr rfl)

/-! ### What a step can do -/

/-- R370: the state that EV.RESET answers. -/
def State.afterReset (s : State) : State :=
  ({ State.resetWith s.cfg with
      inputs := s.inputs, draws := s.draws, bus := s.bus, results := s.results } : State).emit .rst

/-- R111: what a step can do, by the agent that acts. -/
inductive StepEffect (s : State) : State → Prop where
  | host {u : State} (hev : s.pins.ev = 0#3) (h : HostEffect (decodeHostOp s.cfg s.pins.host) s u) :
      StepEffect s u.advance
  | tick {u : State} {i : Instr} (hev : s.pins.ev = 1#3) (harmed : s.eng.armed = true)
      (hsel : decodeUop s.tickSel = some i) (h : performUop i s.disarm = .next u) : StepEffect s u.advance
  | poll {u : State} {i : Instr} (hev : s.pins.ev = 2#3) (hwait : s.eng.wait = true)
      (hsel : decodeUop s.uop = some i) (h : performUop i s = .next u) : StepEffect s u.advance
  | dispatch {u : State} (hev : s.pins.ev = 3#3) (hpend : s.seq.cplPend = true)
      (h : DispatchEffect s.consumeCompletion u) : StepEffect s u.advance
  | reset (hev : s.pins.ev = 4#3) : StepEffect s s.afterReset.advance

/-- A step that takes a next state has one of the effects. -/
theorem step_effect {s t : State} (h : step s = .next t) : StepEffect s t := by
  obtain ⟨-, i, u, hi, hu, rfl⟩ := step_next h
  have hw := encode_of_decodeEv hi
  rcases decodeEv_cases hi with rfl | rfl | rfl | rfl | rfl <;> have hev := (OpWord.ev.inj hw).symm
  · exact .host hev (performHostOp_effect hu)
  · obtain ⟨ha, i, hsel, hp⟩ := execEvTick_next hu
    exact .tick hev ha hsel hp
  · obtain ⟨hw, i, hsel, hp⟩ := execEvPoll_next hu
    exact .poll hev hw hsel hp
  · obtain ⟨hc, i, -, hp⟩ := execEvDispatch_next hu
    exact .dispatch hev hc (performSeqOp_effect hp)
  · cases hu; exact .reset hev

end Sys2Proof.Machine
end

section
/-! PROOFS. The family of spec/10_state.md: every step keeps the invariants R58 and R59 with the walk and line facts. -/

namespace Sys2Proof.Machine

/-! ### Invariants and the fields they look at -/

/-- R59 looks at the sequencer, at `e_busy` and at the owner only. -/
theorem SeqInv.congr {s t : State} (h : SeqInv s) (hseq : t.seq = s.seq) (hbusy : t.eng.busy = s.eng.busy)
    (howner : t.eng.owner = s.eng.owner) : SeqInv t := by
  cases h
  constructor <;> simpa only [hseq, hbusy, howner]

/-- The buffers' form looks at the buffers and at their sizes only. -/
theorem BufferInv.congr {s t : State} (h : BufferInv s) (hcfg : t.cfg = s.cfg) (hwbuf : t.wbuf = s.wbuf)
    (hrbuf : t.rbuf = s.rbuf) : BufferInv t := by
  cases h
  constructor <;> simpa only [hcfg, hwbuf, hrbuf]

/-- What the invariant says of the engine looks at the parameters, the engine, the latches and the lines only. -/
theorem Inv.congr {s t : State} (h : Inv s) (hcfg : t.cfg = s.cfg) (heng : t.eng = s.eng) (hlatch : t.latch = s.latch)
    (hlines : t.lines = s.lines) (hseq : SeqInv t) (hbuf : BufferInv t) (herr : ErrInv t) : Inv t where
  engine := by
    have huop : t.uop = s.uop := by rw [State.uop, State.uop, heng]
    cases h.engine; constructor <;> simpa only [huop, heng, hlines]
  walk := by cases h.walk; constructor <;> simpa only [hcfg, heng, hlatch]
  line := by cases h.line; constructor <;> simpa only [heng, hlines]
  seq := hseq
  buffer := hbuf
  err := herr

/-- The invariant does not look at the step's inputs, at the host's registers, at `viol` and at what is observed. -/
theorem Inv.observed {s t : State} (hi : Inv s) (hcfg : t.cfg = s.cfg) (heng : t.eng = s.eng)
    (hlatch : t.latch = s.latch) (hlines : t.lines = s.lines) (hseq : t.seq = s.seq) (hwbuf : t.wbuf = s.wbuf)
    (hrbuf : t.rbuf = s.rbuf) : Inv t :=
  hi.congr hcfg heng hlatch hlines (hi.seq.congr hseq (by rw [heng]) (by rw [heng]))
    (hi.buffer.congr hcfg hwbuf hrbuf) (by simpa only [ErrInv, hseq] using hi.err)

/-- R59 where the sequencer is in a state that is not active. -/
theorem SeqInv.of_inactive {s : State} (hact : s.seq.state.active = false) (hpend : s.seq.cplPend = false)
    (hown : ¬(s.eng.busy = true ∧ s.eng.owner = .seq)) : SeqInv s where
  active_one ha := by rw [hact] at ha; cases ha
  inactive_none _ := ⟨hpend, hown⟩
  pend_idle hp := by rw [hpend] at hp; cases hp

/-- R59 where the sequencer's transaction is in flight. -/
theorem SeqInv.of_issued {s : State} (hact : s.seq.state.active = true) (hpend : s.seq.cplPend = false)
    (hbusy : s.eng.busy = true) (hown : s.eng.owner = .seq) : SeqInv s where
  active_one _ := by simp [*]
  inactive_none ha := by rw [hact] at ha; cases ha
  pend_idle hp := by rw [hpend] at hp; cases hp

/-- R59 where the sequencer's transaction has ended and its completion is pending. -/
theorem SeqInv.of_pending {s : State} (hact : s.seq.state.active = true) (hpend : s.seq.cplPend = true)
    (hbusy : s.eng.busy = false) : SeqInv s where
  active_one _ := by simp [*]
  inactive_none ha := by rw [hact] at ha; cases ha
  pend_idle _ := hbusy

/-! ### The engine's invariants at each place of the walk -/

/-- R58 (d): up to the ACK slot every micro-state of a byte selects a row. -/
theorem rowOf_isSome {ph : Phase} {rs h : Bool} {bit : BitVec 4} (hph : ph = .addr ∨ ph = .write ∨ ph = .read)
    (hbit : bit.toNat ≤ 8) : (rowOf false ph rs bit h).isSome = true := by
  have hslot : bit.toNat < 8 ∨ bit = 8#4 := by bv_omega
  rcases hph with rfl | rfl | rfl <;> rcases hslot with hb | rfl <;> cases h <;> simp [rowOf, *]

/-- R58 in an armed micro-state. -/
theorem EngineInv.of_armed {t : State} (harmed : t.eng.armed = true) (hwait : t.eng.wait = false)
    (hbusy : t.eng.busy = true) (hbit : t.eng.bit.toNat ≤ 8) : EngineInv t where
  busy_armed_wait := by simp [*]
  not_armed_and_waiting := by simp [*]
  wait_half := by simp [*]
  wait_poll := by simp [*]
  bit_le := hbit
  row hph := by rw [State.uop, decodeUop_selector, hwait]; exact rowOf_isSome hph hbit
  idle_released := by simp [*]

/-- R58 during a hold at one of the two poll sites. -/
theorem EngineInv.of_hold {t : State} (harmed : t.eng.armed = false) (hwait : t.eng.wait = true)
    (hbusy : t.eng.busy = true) (hhalf : t.eng.half = false) (hbit : t.eng.bit.toNat ≤ 8)
    (hpoll : decodeUop t.uop = some .uTxAckPoll ∨ decodeUop t.uop = some .uRxBitPoll) : EngineInv t where
  busy_armed_wait := by simp [*]
  not_armed_and_waiting := by simp [*]
  wait_half _ := hhalf
  wait_poll _ := hpoll
  bit_le := hbit
  row _ := by rcases hpoll with h | h <;> simp [h]
  idle_released := by simp [*]

/-- R58 with no transaction in flight. -/
theorem EngineInv.of_idle {t : State} (harmed : t.eng.armed = false) (hwait : t.eng.wait = false)
    (hbusy : t.eng.busy = false) (hbit : t.eng.bit.toNat ≤ 8) (hscl : t.lines.scl = true) (hsda : t.lines.sda = true) :
    EngineInv t where
  busy_armed_wait := by simp [*]
  not_armed_and_waiting := by simp [*]
  wait_half := by simp [*]
  wait_poll := by simp [*]
  bit_le := hbit
  row hph := by rcases hph with h | h | h <;> simp [Engine.busy, h, Phase.busy] at hbusy
  idle_released _ := ⟨hscl, hsda⟩

/-- The lines in an armed micro-state of a byte or of STOP: SCL is `e_half`. -/
theorem LineInv.of_slot {t : State} (hwait : t.eng.wait = false) (hstart : t.eng.phase ≠ .start)
    (hscl : t.lines.scl = t.eng.half) (hstop : t.eng.phase = .stop → t.eng.half = true → t.lines.sda = false) :
    LineInv t where
  low_half _ hh _ := by rw [hscl, hh]
  high_half _ hh := by rw [hscl, hh]
  wait_released := by simp [*]
  start_released := by simp [*]
  start_rs_low := by simp [*]
  stop_low := hstop

/-- The lines before a START. -/
theorem LineInv.of_start {t : State} (hwait : t.eng.wait = false) (hstart : t.eng.phase = .start)
    (hrel : t.eng.rs = false → t.lines.scl = true ∧ t.lines.sda = true)
    (hlow : t.eng.rs = true → t.lines.scl = false) : LineInv t where
  low_half := by simp [*]
  high_half := by simp [*]
  wait_released := by simp [*]
  start_released _ := hrel
  start_rs_low _ := hlow
  stop_low := by simp [*]

/-- The lines during a hold. -/
theorem LineInv.of_hold {t : State} (hwait : t.eng.wait = true) (hhalf : t.eng.half = false)
    (hstart : t.eng.phase ≠ .start) (hscl : t.lines.scl = true) (hsda : t.lines.sda = true) : LineInv t where
  low_half := by simp [*]
  high_half := by simp [*]
  wait_released _ := ⟨hscl, hsda⟩
  start_released := by simp [*]
  start_rs_low := by simp [*]
  stop_low := by simp [*]

/-- The lines with no transaction in flight. -/
theorem LineInv.of_idle {t : State} (hwait : t.eng.wait = false) (hbusy : t.eng.busy = false) : LineInv t := by
  constructor <;> cases hph : t.eng.phase <;> simp_all [Engine.busy, Phase.busy]

/-- R150's precondition: the counts of `t` fit the buffers, and it holds WMAX bytes. -/
structure Txn.Fits (t : Txn) (p : Params) : Prop where
  wcnt_le : t.wcnt.toNat ≤ p.wmax
  rcnt_le : t.rcnt.toNat ≤ p.rmax
  wdata_len : t.wdata.length = p.wmax

/-- R40: the latched transaction fits the buffers. -/
theorem WalkInv.fits {s : State} (h : WalkInv s) : s.latch.Fits s.cfg := ⟨h.wcnt_le, h.rcnt_le, h.wdata_len⟩

/-- R162: `e_rs` is 0 outside START. -/
theorem WalkInv.rs_eq_false {s : State} (h : WalkInv s) (hph : s.eng.phase ≠ .start) : s.eng.rs = false := by
  by_contra hrs; exact hph (h.rs_start (by simpa using hrs)).1

/-- R175: `e_next` is 0 outside STOP. -/
theorem WalkInv.next_eq_false {s : State} (h : WalkInv s) (hph : s.eng.phase ≠ .stop) : s.eng.next = false := by
  by_contra hn; exact hph (h.next_stop (by simpa using hn)).1

/-- R168: `e_fail` is 0 outside STOP and FAILED. -/
theorem WalkInv.fail_eq_false {s : State} (h : WalkInv s) (hph : s.eng.phase ≠ .stop) (hph' : s.eng.phase ≠ .failed) :
    s.eng.fail = false := by
  by_contra hf; exact (h.fail_stop (by simpa using hf)).elim hph hph'

section Places
variable {t : State} (hfits : t.latch.Fits t.cfg)
include hfits

/-- The walk before a START. -/
theorem WalkInv.of_start (hph : t.eng.phase = .start) (hbit : t.eng.bit = 0#4) (hhalf : t.eng.half = false)
    (hrs : t.eng.rs = true → t.eng.dir = true) (hnext : t.eng.next = false) (hfail : t.eng.fail = false)
    (hw : t.eng.dir = false → t.latch.wcnt ≠ 0#8) (hr : t.eng.dir = true → t.latch.rcnt ≠ 0#8) : WalkInv t := by
  cases hfits
  constructor <;> simp_all

/-- The walk in the address byte. -/
theorem WalkInv.of_addr (hph : t.eng.phase = .addr) (hrs : t.eng.rs = false) (hnext : t.eng.next = false)
    (hfail : t.eng.fail = false) (hw : t.eng.dir = false → t.latch.wcnt ≠ 0#8)
    (hr : t.eng.dir = true → t.latch.rcnt ≠ 0#8) : WalkInv t := by
  cases hfits
  constructor <;> simp_all

/-- The walk in a written byte. -/
theorem WalkInv.of_write (hph : t.eng.phase = .write) (hrs : t.eng.rs = false) (hnext : t.eng.next = false)
    (hfail : t.eng.fail = false) (hbyte : t.eng.byte.toNat < t.latch.wcnt.toNat) : WalkInv t := by
  cases hfits
  constructor <;> simp_all

/-- The walk in a received byte. -/
theorem WalkInv.of_read (hph : t.eng.phase = .read) (hrs : t.eng.rs = false) (hnext : t.eng.next = false)
    (hfail : t.eng.fail = false) (hbyte : t.eng.byte.toNat < t.latch.rcnt.toNat) : WalkInv t := by
  cases hfits
  constructor <;> simp_all

/-- The walk in STOP. -/
theorem WalkInv.of_stop (hph : t.eng.phase = .stop) (hbit : t.eng.bit = 0#4) (hrs : t.eng.rs = false)
    (hnext : t.eng.next = true → t.eng.dir = true ∧ t.latch.rcnt ≠ 0#8 ∧ t.eng.fail = false) : WalkInv t := by
  cases hfits
  constructor <;> simp_all

/-- The walk at the end of a transaction, or before the first one. -/
theorem WalkInv.of_idle (hbusy : t.eng.busy = false) (hrs : t.eng.rs = false) (hnext : t.eng.next = false)
    (hfail : t.eng.fail = true → t.eng.phase = .failed) : WalkInv t := by
  cases hfits
  constructor <;> cases hph : t.eng.phase <;> simp_all [Engine.busy, Phase.busy]

end Places

/-! ### BEGIN keeps the invariant -/

/-- R234: the command store's transactions fit the buffers. -/
theorem storeTxn_fits (p : Params) (n : Nat) (k : Issuing) : (storeTxn p n k).Fits p := by
  obtain ⟨-, hwcnt, hrcnt, -, -, hlen⟩ := storeTxn_isCommand p n k
  have hp := Params.bounds p
  refine ⟨hwcnt ▸ ?_, hrcnt ▸ ?_, hlen⟩
  · cases k <;> simp [storeBytes] <;> omega
  · cases k <;> simp [storeReads] <;> omega

/-- R150, R163: after a BEGIN of a transaction that fits the buffers the invariants hold, if those of the sequencer
do. -/
theorem Inv.begun {s : State} {t : Txn} {o : Owner} (hfits : t.Fits s.cfg) (hne : t.wcnt ≠ 0#8 ∨ t.rcnt ≠ 0#8)
    (hseq : SeqInv (s.begun t o)) (hbuf : BufferInv s) (herr : ErrInv s) : Inv (s.begun t o) where
  engine := .of_armed rfl rfl rfl (by decide : (0#4).toNat ≤ 8)
  walk := .of_addr hfits rfl rfl rfl rfl of_decide_eq_false
    (fun hw => hne.resolve_left (not_not.2 (of_decide_eq_true hw)))
  line := .of_slot rfl nofun rfl nofun
  seq := hseq
  buffer := hbuf.congr rfl rfl rfl
  err := herr

/-- R46, R230: the states that issue a transaction are active. -/
theorem Issuing.toState_active (k : Issuing) : k.toState.active = true := by cases k <;> rfl

/-! ### The host's accesses and the dispatch operations keep the invariant -/

/-- R329: a write inside the write buffer keeps the buffers' form. -/
theorem BufferInv.write_wbuf {s : State} (h : BufferInv s) {j : Nat} (hj : j < s.cfg.wmax) (b : Byte) :
    BufferInv { s with wbuf := s.wbuf.write j b } :=
  { h with
    wbuf_wf := Memory.wf_write h.wbuf_wf j b
    wbuf_bound := fun c hc => (Memory.mem_write hc).elim (fun he => he ▸ hj) (h.wbuf_bound c) }

/-- R171: a write inside the read buffer keeps the buffers' form. -/
theorem BufferInv.write_rbuf {s : State} (h : BufferInv s) {j : Nat} (hj : j < s.cfg.rmax) (b : Byte) :
    BufferInv { s with rbuf := s.rbuf.write j b } :=
  { h with
    rbuf_wf := Memory.wf_write h.rbuf_wf j b
    rbuf_bound := fun c hc => (Memory.mem_write hc).elim (fun he => he ▸ hj) (h.rbuf_bound c) }

/-- Every access of the host keeps the invariants. -/
theorem HostEffect.inv {i : Instr} {s t : State} (h : HostEffect i s t) (hi : Inv s) : Inv t := by
  cases h with
  | same => exact hi
  | answer | refusal | descriptor => exact hi.observed rfl rfl rfl rfl rfl rfl rfl
  | buffer j b hj =>
    exact hi.congr rfl rfl rfl rfl (hi.seq.congr rfl rfl rfl) (hi.buffer.write_wbuf hj b) hi.err
  | hostBegin hbusy hact hw hr hne =>
    exact .begun ⟨hw, hr, by simp [State.hostTxn]⟩ hne
      (.of_inactive hact (hi.seq.inactive_none hact).1 nofun) hi.buffer hi.err
  | seqBegin k e hbusy hact he =>
    refine .begun (storeTxn_fits ..) (storeTxn_nonzero ..) ?_ (hi.buffer.congr rfl rfl rfl) ?_
    · exact .of_issued k.toState_active (hi.seq.inactive_none hact).1 rfl rfl
    · rcases he with rfl | rfl
      · exact .inl rfl
      · exact hi.err

/-- Every dispatch operation keeps the invariants. -/
theorem DispatchEffect.inv {s t : State} (h : DispatchEffect s.consumeCompletion t) (hi : Inv s)
    (hpend : s.seq.cplPend = true) : Inv t := by
  have hnone : ¬(s.eng.busy = true ∧ s.eng.owner = .seq) := by simp [hi.seq.pend_idle hpend]
  have hbuf {u : State} (hc : u.cfg = s.cfg) (hw : u.wbuf = s.wbuf) (hr : u.rbuf = s.rbuf) : BufferInv u :=
    hi.buffer.congr hc hw hr
  cases h with
  | fault k hk => exact hi.congr rfl rfl rfl rfl (.of_inactive rfl rfl hnone) (hbuf rfl rfl rfl) (.inr hk)
  | reading => exact hi.congr rfl rfl rfl rfl (.of_inactive rfl rfl hnone) (hbuf rfl rfl rfl) hi.err
  | issue k =>
    rw [State.enter_begun]
    exact .begun (storeTxn_fits ..) (storeTxn_nonzero ..) (.of_issued k.toState_active rfl rfl rfl)
      (hbuf rfl rfl rfl) hi.err

/-! ### Micro-operations within a slot -/

/-- R58 (a): an armed engine does not wait. -/
theorem EngineInv.wait_eq_false {s : State} (h : EngineInv s) (ha : s.eng.armed = true) : s.eng.wait = false := by
  by_contra hw; exact h.not_armed_and_waiting ⟨ha, by simpa using hw⟩

/-- R58 (a): an armed engine is busy. -/
theorem EngineInv.busy_of_armed {s : State} (h : EngineInv s) (ha : s.eng.armed = true) : s.eng.busy = true := by
  rw [h.busy_armed_wait, ha, Bool.true_or]

/-- R58 (a): a waiting engine is busy. -/
theorem EngineInv.busy_of_wait {s : State} (h : EngineInv s) (hw : s.eng.wait = true) : s.eng.busy = true := by
  rw [h.busy_armed_wait, hw, Bool.or_true]

/-- R164, R169: the slot after a data bit is a data bit or the ACK slot. -/
theorem bit_succ_le {b : BitVec 4} (h : b.toNat < 8) : (b + 1#4).toNat ≤ 8 := by bv_omega

/-- `t` is at the same place of the walk as `s`: within a slot only `e_half`, `e_bit` (not in STOP), `e_scratch`,
`e_nack`, `e_wait` and `e_armed` of the engine change, and the sequencer does not. -/
structure SamePlace (s t : State) : Prop where
  cfg : t.cfg = s.cfg := by rfl
  latch : t.latch = s.latch := by rfl
  seq : t.seq = s.seq := by rfl
  owner : t.eng.owner = s.eng.owner := by rfl
  phase : t.eng.phase = s.eng.phase := by rfl
  byte : t.eng.byte = s.eng.byte := by rfl
  dir : t.eng.dir = s.eng.dir := by rfl
  rs : t.eng.rs = s.eng.rs := by rfl
  next : t.eng.next = s.eng.next := by rfl
  fail : t.eng.fail = s.eng.fail := by rfl
  stop_bit : s.eng.phase = .stop → t.eng.bit = s.eng.bit

section SamePlace
variable {s t : State} (h : SamePlace s t) (hi : Inv s) (hstart : s.eng.phase ≠ .start) (hbusy : s.eng.busy = true)
include h

/-- R38: `e_busy` is a matter of the phase. -/
theorem SamePlace.busy : t.eng.busy = s.eng.busy := by rw [Engine.busy, Engine.busy, h.phase]

include hi

/-- R59 within a slot. -/
theorem SamePlace.seqInv : SeqInv t := hi.seq.congr h.seq h.busy h.owner

/-- R47 within a slot. -/
theorem SamePlace.errInv : ErrInv t := by simpa only [ErrInv, h.seq] using hi.err

include hstart

/-- The walk within a slot. -/
theorem SamePlace.walkInv : WalkInv t := by
  have hzero := hi.walk.stop_zero
  cases hi.walk
  cases h
  constructor <;> simp_all

include hbusy

/-- The invariants in the next armed micro-state of a slot. -/
theorem SamePlace.inv_of_armed (harmed : t.eng.armed = true) (hwait : t.eng.wait = false) (hbit : t.eng.bit.toNat ≤ 8)
    (hscl : t.lines.scl = t.eng.half) (hstop : t.eng.phase = .stop → t.eng.half = true → t.lines.sda = false)
    (hbuf : BufferInv t) : Inv t where
  engine := .of_armed harmed hwait (h.busy.trans hbusy) hbit
  walk := h.walkInv hi hstart
  line := .of_slot hwait (h.phase ▸ hstart) hscl hstop
  seq := h.seqInv hi
  buffer := hbuf
  err := h.errInv hi

/-- The invariants in the hold of a slot. -/
theorem SamePlace.inv_of_hold (harmed : t.eng.armed = false) (hwait : t.eng.wait = true) (hhalf : t.eng.half = false)
    (hpoll : decodeUop t.uop = some .uTxAckPoll ∨ decodeUop t.uop = some .uRxBitPoll)
    (hbit : t.eng.bit.toNat ≤ 8) (hscl : t.lines.scl = true) (hsda : t.lines.sda = true) (hbuf : BufferInv t) :
    Inv t where
  engine := .of_hold harmed hwait (h.busy.trans hbusy) hhalf hbit hpoll
  walk := h.walkInv hi hstart
  line := .of_hold hwait hhalf (h.phase ▸ hstart) hscl hsda
  seq := h.seqInv hi
  buffer := hbuf
  err := h.errInv hi

end SamePlace

/-- R171: storing the received byte keeps the invariants. -/
theorem Inv.storeReceived {s t : State} (hi : Inv s) (h : s.storeReceived = some t) : Inv t := by
  unfold State.storeReceived at h
  split at h
  · next hj =>
    cases h
    exact hi.congr rfl rfl rfl rfl (hi.seq.congr rfl rfl rfl) (hi.buffer.write_rbuf hj _) hi.err
  · cases h

section Ticks
variable {s t : State} (hi : Inv s) (ha : s.eng.armed = true)
include hi ha

/-- R164 keeps the invariants. -/
theorem execUTxBitH0_inv (h : execUTxBitH0 s.disarm = .next t) : Inv t := by
  obtain ⟨hsel, ht⟩ := microOp_next.1 h
  obtain ⟨hph, -, -⟩ := (selects_uTxBitH0 s.eng).1 hsel
  cases ht
  refine SamePlace.inv_of_armed (s := s) { stop_bit := fun _ => rfl } hi ?_
    (hi.engine.busy_of_armed ha) rfl (hi.engine.wait_eq_false ha) hi.engine.bit_le rfl ?_
    (hi.buffer.congr rfl rfl rfl)
  all_goals rcases hph with hph | hph <;> simp [hph]

/-- R165 keeps the invariants. -/
theorem execUTxBitH1_inv (h : execUTxBitH1 s.disarm = .next t) : Inv t := by
  obtain ⟨hsel, ht⟩ := microOp_next.1 h
  obtain ⟨hph, hbit, -⟩ := (selects_uTxBitH1 s.eng).1 hsel
  cases ht
  refine SamePlace.inv_of_armed (s := s) { stop_bit := ?_ } hi ?_
    (hi.engine.busy_of_armed ha) rfl (hi.engine.wait_eq_false ha) (bit_succ_le hbit) rfl ?_
    (hi.buffer.congr rfl rfl rfl)
  all_goals rcases hph with hph | hph <;> simp [hph]

/-- R166 keeps the invariants. -/
theorem execUTxAckH0_inv (h : execUTxAckH0 s.disarm = .next t) : Inv t := by
  obtain ⟨hsel, ht⟩ := microOp_next.1 h
  obtain ⟨hph, hbit, hhalf⟩ := (selects_uTxAckH0 s.eng).1 hsel
  cases ht
  refine SamePlace.inv_of_hold (s := s) { stop_bit := fun _ => rfl } hi ?_
    (hi.engine.busy_of_armed ha) rfl rfl hhalf (.inl ((selects_uTxAckPoll _ _).2 ⟨rfl, hph, hbit, hhalf⟩))
    hi.engine.bit_le rfl rfl (hi.buffer.congr rfl rfl rfl)
  rcases hph with hph | hph <;> simp [hph]

/-- R169 keeps the invariants. -/
theorem execURxBitH0_inv (h : execURxBitH0 s.disarm = .next t) : Inv t := by
  obtain ⟨hsel, ht⟩ := microOp_next.1 h
  obtain ⟨hph, hbit, hhalf⟩ := (selects_uRxBitH0 s.eng).1 hsel
  cases ht
  exact SamePlace.inv_of_hold (s := s) { stop_bit := fun _ => rfl } hi
    (by simp [hph]) (hi.engine.busy_of_armed ha) rfl rfl hhalf
    (.inr ((selects_uRxBitPoll _ _).2 ⟨rfl, hph, hbit, hhalf⟩)) hi.engine.bit_le rfl rfl
    (hi.buffer.congr rfl rfl rfl)

/-- R171 keeps the invariants. -/
theorem execURxBitH1_inv (h : execURxBitH1 s.disarm = .next t) : Inv t := by
  obtain ⟨hsel, ht⟩ := microOp_next.1 h
  obtain ⟨hph, hbit, -⟩ := (selects_uRxBitH1 s.eng).1 hsel
  dsimp only at ht
  have hslot : Inv ({ s.disarm.setClock false with
      eng := { s.disarm.eng with half := false, bit := s.eng.bit + 1#4 } } : State).arm :=
    SamePlace.inv_of_armed (s := s) { stop_bit := by simp [hph] } hi (by simp [hph])
      (hi.engine.busy_of_armed ha) rfl (hi.engine.wait_eq_false ha) (bit_succ_le hbit) rfl (by simp [hph])
      (hi.buffer.congr rfl rfl rfl)
  split at ht
  · exact hslot.storeReceived ht
  · cases ht; exact hslot

/-- R172 keeps the invariants. -/
theorem execURxMackH0_inv (h : execURxMackH0 s.disarm = .next t) : Inv t := by
  obtain ⟨hsel, ht⟩ := microOp_next.1 h
  obtain ⟨hph, -, -⟩ := (selects_uRxMackH0 s.eng).1 hsel
  cases ht
  exact SamePlace.inv_of_armed (s := s) { stop_bit := fun _ => rfl } hi
    (by simp [hph]) (hi.engine.busy_of_armed ha) rfl (hi.engine.wait_eq_false ha) hi.engine.bit_le rfl
    (by simp [hph]) (hi.buffer.congr rfl rfl rfl)

/-- R174 keeps the invariants. -/
theorem execUStopH0_inv (h : execUStopH0 s.disarm = .next t) : Inv t := by
  obtain ⟨hsel, ht⟩ := microOp_next.1 h
  obtain ⟨hph, -⟩ := (selects_uStopH0 s.eng).1 hsel
  cases ht
  exact SamePlace.inv_of_armed (s := s) { stop_bit := fun _ => rfl } hi
    (by simp [hph]) (hi.engine.busy_of_armed ha) rfl (hi.engine.wait_eq_false ha) hi.engine.bit_le rfl
    (fun _ _ => rfl) (hi.buffer.congr rfl rfl rfl)

end Ticks

/-- R161, R167, R170: a poll that reads SCL low keeps the invariants, for only the history grows. -/
theorem Inv.emit {s : State} (hi : Inv s) (e : LineEvent) : Inv (s.emit e) :=
  hi.observed rfl rfl rfl rfl rfl rfl rfl

section Polls
variable {s t : State} (hi : Inv s) (hw : s.eng.wait = true)
include hi hw

/-- R167 keeps the invariants. -/
theorem execUTxAckPoll_inv (h : execUTxAckPoll s = .next t) : Inv t := by
  obtain ⟨hsel, ht⟩ := microOp_next.1 h
  obtain ⟨-, hph, -, -⟩ := (selects_uTxAckPoll s.eng _).1 hsel
  obtain ⟨hscl, -⟩ := hi.line.wait_released hw
  cases ht
  split
  · refine SamePlace.inv_of_armed (s := s) { stop_bit := fun _ => rfl } hi ?_ (hi.engine.busy_of_wait hw) rfl rfl
      hi.engine.bit_le hscl ?_ (hi.buffer.congr rfl rfl rfl)
    all_goals rcases hph with hph | hph <;> simp [hph]
  · exact hi.emit _

/-- R170 keeps the invariants. -/
theorem execURxBitPoll_inv (h : execURxBitPoll s = .next t) : Inv t := by
  obtain ⟨hsel, ht⟩ := microOp_next.1 h
  obtain ⟨-, hph, -, -⟩ := (selects_uRxBitPoll s.eng _).1 hsel
  obtain ⟨hscl, -⟩ := hi.line.wait_released hw
  cases ht
  split
  · exact SamePlace.inv_of_armed (s := s) { stop_bit := fun _ => rfl } hi (by simp [hph])
      (hi.engine.busy_of_wait hw) rfl rfl hi.engine.bit_le hscl (by simp [hph]) (hi.buffer.congr rfl rfl rfl)
  · exact hi.emit _

end Polls

/-! ### Micro-operations that end a slot -/

/-- R168: what the engine does after the ACK slot of a transmitted byte, in the transaction `t`. -/
inductive AfterAck (e : Engine) (t : Txn) : Engine → Prop where
  /-- NACK: to STOP, failed (R344). -/
  | nack (hnack : e.nack = true) :
      AfterAck e t { e with half := false, bit := 0#4, fail := true, next := false, phase := .stop }
  /-- The address was acknowledged, for reading. -/
  | toRead (hnack : e.nack = false) (hph : e.phase = .addr) (hdir : e.dir = true) :
      AfterAck e t { e with half := false, bit := 0#4, phase := .read, byte := 0#8 }
  /-- The address was acknowledged, for writing. -/
  | toWrite (b : Byte) (hnack : e.nack = false) (hph : e.phase = .addr) (hdir : e.dir = false)
      (hb : t.wdata[0]? = some b) :
      AfterAck e t { e with half := false, bit := 0#4, phase := .write, byte := 0#8, scratch := b }
  /-- A byte was acknowledged and another one follows. -/
  | nextByte (b : Byte) (hnack : e.nack = false) (hph : e.phase ≠ .addr) (hlt : e.byte.toNat + 1 < t.wcnt.toNat)
      (hb : t.wdata[e.byte.toNat + 1]? = some b) :
      AfterAck e t { e with half := false, bit := 0#4, byte := BitVec.ofNat 8 (e.byte.toNat + 1), scratch := b }
  /-- The last byte was acknowledged and the read phase follows a repeated START. -/
  | restart (hnack : e.nack = false) (hph : e.phase ≠ .addr) (hge : t.wcnt.toNat ≤ e.byte.toNat + 1)
      (hr : t.rcnt ≠ 0#8) (hrs : t.rs = true) :
      AfterAck e t { e with
        half := false, bit := 0#4, byte := BitVec.ofNat 8 (e.byte.toNat + 1), dir := true, phase := .start, rs := true }
  /-- The last byte was acknowledged and the read phase follows a STOP. -/
  | stopThenRead (hnack : e.nack = false) (hph : e.phase ≠ .addr) (hge : t.wcnt.toNat ≤ e.byte.toNat + 1)
      (hr : t.rcnt ≠ 0#8) (hrs : t.rs = false) :
      AfterAck e t { e with
        half := false, bit := 0#4, byte := BitVec.ofNat 8 (e.byte.toNat + 1), dir := true, phase := .stop, next := true }
  /-- The last byte was acknowledged and nothing is to be read. -/
  | toStop (hnack : e.nack = false) (hph : e.phase ≠ .addr) (hge : t.wcnt.toNat ≤ e.byte.toNat + 1)
      (hr : t.rcnt = 0#8) :
      AfterAck e t { e with
        half := false, bit := 0#4, byte := BitVec.ofNat 8 (e.byte.toNat + 1), phase := .stop, next := false }

/-- R168: `Engine.afterAck` does one of these. -/
theorem Engine.afterAck_effect {e e' : Engine} {t : Txn} (h : e.afterAck t = some e') : AfterAck e t e' := by
  unfold Engine.afterAck at h
  dsimp only at h
  split at h
  · next hnack => cases h; exact .nack hnack
  next hnack =>
  rw [Bool.not_eq_true] at hnack
  split at h
  · next hph =>
    split at h
    · next hdir => cases h; exact .toRead hnack hph hdir
    · next hdir =>
      obtain ⟨b, hb, rfl⟩ := Option.map_eq_some_iff.1 h
      exact .toWrite b hnack hph (by simpa using hdir) hb
  next hph =>
  split at h
  · next hlt =>
    obtain ⟨b, hb, rfl⟩ := Option.map_eq_some_iff.1 h
    exact .nextByte b hnack hph hlt hb
  next hge =>
  have hge := not_lt.1 hge
  split at h
  · next hr =>
    split at h
    · next hrs => cases h; exact .restart hnack hph hge hr hrs
    · next hrs => cases h; exact .stopThenRead hnack hph hge hr (by simpa using hrs)
  · next hr => cases h; exact .toStop hnack hph hge (not_not.1 hr)

/-- R168: whatever comes after the ACK slot, its first half is next, at bit 0. -/
theorem AfterAck.slot_start {e e' : Engine} {t : Txn} (h : AfterAck e t e') :
    e'.half = false ∧ e'.bit = 0#4 ∧ e'.wait = e.wait ∧ e'.owner = e.owner := by
  cases h <;> exact ⟨rfl, rfl, rfl, rfl⟩

/-- R168: after the ACK slot the transaction goes on: the last phase is STOP. -/
theorem AfterAck.busy {e e' : Engine} {t : Txn} (h : AfterAck e t e') (hbusy : e.busy = true) : e'.busy = true := by
  cases h with
  | nextByte => exact hbusy
  | _ => rfl

/-- A count that is not 0 has a first byte. -/
theorem toNat_pos_of_ne_zero {b : Byte} (h : b ≠ 0#8) : 0 < b.toNat := by
  bv_omega

/-- R168: the walk after the ACK slot of a transmitted byte. -/
theorem AfterAck.walkInv {s : State} {e : Engine} (h : AfterAck s.disarm.eng s.latch e) (hi : WalkInv s)
    (hph : s.eng.phase = .addr ∨ s.eng.phase = .write) :
    WalkInv ({ s.disarm.setClock false with eng := e } : State).arm := by
  have hne : s.eng.phase ≠ .start ∧ s.eng.phase ≠ .stop ∧ s.eng.phase ≠ .failed := by
    rcases hph with h | h <;> simp [h]
  have hrs := hi.rs_eq_false hne.1
  have hnext := hi.next_eq_false hne.2.1
  have hfail := hi.fail_eq_false hne.2.1 hne.2.2
  cases h with
  | nack => exact .of_stop hi.fits rfl rfl hrs nofun
  | toRead _ hph hdir =>
    exact .of_read hi.fits rfl hrs hnext hfail (toNat_pos_of_ne_zero (hi.read_nonempty (.inr hph) hdir))
  | toWrite b _ hph hdir =>
    exact .of_write hi.fits rfl hrs hnext hfail (toNat_pos_of_ne_zero (hi.write_nonempty (.inr hph) hdir))
  | nextByte b _ hna hlt =>
    refine .of_write hi.fits (hph.resolve_left hna) hrs hnext hfail (lt_of_eq_of_lt ?_ hlt)
    exact BitVec.toNat_ofNat _ 8 |>.trans (Nat.mod_eq_of_lt (hlt.trans s.latch.wcnt.isLt))
  | restart _ _ _ hr => exact .of_start hi.fits rfl rfl rfl (fun _ => rfl) hnext hfail nofun (fun _ => hr)
  | stopThenRead _ _ _ hr => exact .of_stop hi.fits rfl rfl hrs (fun _ => ⟨rfl, hr, hfail⟩)
  | toStop => exact .of_stop hi.fits rfl rfl hrs nofun

/-- R168: the lines after the ACK slot of a transmitted byte. -/
theorem AfterAck.lineInv {s : State} {e : Engine} (h : AfterAck s.disarm.eng s.latch e) (hwait : s.eng.wait = false)
    (hph : s.eng.phase = .addr ∨ s.eng.phase = .write) :
    LineInv ({ s.disarm.setClock false with eng := e } : State).arm := by
  cases h with
  | restart => exact .of_start hwait rfl nofun (fun _ => rfl)
  | nextByte b _ hna => exact .of_slot hwait (by simp [hph.resolve_left hna]) rfl nofun
  | _ => exact .of_slot hwait nofun rfl nofun

section Ticks
variable {s t : State} (hi : Inv s) (ha : s.eng.armed = true)
include hi ha

/-- R168 keeps the invariants. -/
theorem execUTxAckH1_inv (h : execUTxAckH1 s.disarm = .next t) : Inv t := by
  obtain ⟨hsel, ht⟩ := microOp_next.1 h
  obtain ⟨hph, -, -⟩ := (selects_uTxAckH1 s.eng).1 hsel
  obtain ⟨e, he, rfl⟩ := Option.map_eq_some_iff.1 ht
  have hack := Engine.afterAck_effect he
  obtain ⟨-, hbit, hwait, howner⟩ := hack.slot_start
  have hw := hi.engine.wait_eq_false ha
  have hbusy := hi.engine.busy_of_armed ha
  exact {
    engine := .of_armed rfl (hwait.trans hw) (hack.busy hbusy) (by simp [hbit])
    walk := hack.walkInv hi.walk hph
    line := hack.lineInv hw hph
    seq := hi.seq.congr rfl ((hack.busy hbusy).trans hbusy.symm) howner
    buffer := hi.buffer.congr rfl rfl rfl
    err := hi.err }

/-- R173 keeps the invariants. -/
theorem execURxMackH1_inv (h : execURxMackH1 s.disarm = .next t) : Inv t := by
  obtain ⟨hsel, ht⟩ := microOp_next.1 h
  obtain ⟨hph, -, -⟩ := (selects_uRxMackH1 s.eng).1 hsel
  have hw := hi.engine.wait_eq_false ha
  have hbusy := hi.engine.busy_of_armed ha
  have hrs := hi.walk.rs_eq_false (by simp [hph])
  have hnext := hi.walk.next_eq_false (by simp [hph])
  have hfail := hi.walk.fail_eq_false (by simp [hph]) (by simp [hph])
  have hlt := hi.walk.read_byte hph
  cases ht
  dsimp only
  split
  · exact {
      engine := .of_armed rfl hw rfl (by decide : (0#4).toNat ≤ 8)
      walk := .of_stop hi.walk.fits rfl rfl hrs nofun
      line := .of_slot hw nofun rfl nofun
      seq := hi.seq.congr rfl hbusy.symm rfl
      buffer := hi.buffer.congr rfl rfl rfl
      err := hi.err }
  · next hlast =>
    have hbyte : (s.eng.byte + 1#8).toNat < s.latch.rcnt.toNat := by
      have hne : s.eng.byte.toNat + 1 ≠ s.latch.rcnt.toNat := fun he => hlast (decide_eq_true he)
      bv_omega
    exact {
      engine := .of_armed rfl hw hbusy (by decide : (0#4).toNat ≤ 8)
      walk := .of_read hi.walk.fits hph hrs hnext hfail hbyte
      line := .of_slot hw (by simp [hph]) rfl nofun
      seq := hi.seq.congr rfl rfl rfl
      buffer := hi.buffer.congr rfl rfl rfl
      err := hi.err }

/-- R162 keeps the invariants. -/
theorem execUStartRs_inv (h : execUStartRs s.disarm = .next t) : Inv t := by
  obtain ⟨hsel, ht⟩ := microOp_next.1 h
  obtain ⟨hph, hrs⟩ := (selects_uStartRs s.eng).1 hsel
  obtain ⟨hbit, hhalf⟩ := hi.walk.start_zero hph
  have hw := hi.engine.wait_eq_false ha
  cases ht
  exact {
    engine := .of_armed rfl hw (hi.engine.busy_of_armed ha) hi.engine.bit_le
    walk := .of_start hi.walk.fits hph hbit hhalf nofun (hi.walk.next_eq_false (by simp [hph]))
      (hi.walk.fail_eq_false (by simp [hph]) (by simp [hph])) (hi.walk.write_nonempty (.inl hph))
      (hi.walk.read_nonempty (.inl hph))
    line := .of_start hw hph (fun _ => ⟨rfl, rfl⟩) nofun
    seq := hi.seq.congr rfl rfl rfl
    buffer := hi.buffer.congr rfl rfl rfl
    err := hi.err }

/-- R163 keeps the invariants. -/
theorem execUStart_inv (h : execUStart s.disarm = .next t) : Inv t := by
  obtain ⟨hsel, ht⟩ := microOp_next.1 h
  obtain ⟨hph, hrs⟩ := (selects_uStart s.eng).1 hsel
  have hw := hi.engine.wait_eq_false ha
  have hbusy := hi.engine.busy_of_armed ha
  cases ht
  exact {
    engine := .of_armed rfl hw rfl (by decide : (0#4).toNat ≤ 8)
    walk := .of_addr hi.walk.fits rfl hrs (hi.walk.next_eq_false (by simp [hph]))
      (hi.walk.fail_eq_false (by simp [hph]) (by simp [hph])) (hi.walk.write_nonempty (.inl hph))
      (hi.walk.read_nonempty (.inl hph))
    line := .of_slot hw nofun rfl nofun
    seq := hi.seq.congr rfl hbusy.symm rfl
    buffer := hi.buffer.congr rfl rfl rfl
    err := hi.err }

end Ticks

/-- R159 keeps the sequencer's invariants: the completion of the sequencer's own transaction is pending afterwards. -/
theorem SeqInv.complete {s t : State} (h : SeqInv s) (hbusy : s.eng.busy = true) (hbusy' : t.eng.busy = false)
    (ok : Bool)
    (hseq : t.seq = if s.eng.owner = .seq then { s.seq with cplPend := true, cplOk := ok } else s.seq) : SeqInv t := by
  have hnone : ¬(t.eng.busy = true ∧ t.eng.owner = .seq) := by simp [hbusy']
  cases hact : s.seq.state.active with
  | false =>
    obtain ⟨hpend, hown⟩ := h.inactive_none hact
    have hhost : s.eng.owner ≠ .seq := fun ho => hown ⟨hbusy, ho⟩
    rw [if_neg hhost] at hseq
    exact .of_inactive (by rw [hseq, hact]) (by rw [hseq, hpend]) hnone
  | true =>
    by_cases ho : s.eng.owner = .seq
    · rw [if_pos ho] at hseq
      exact .of_pending (by rw [hseq, ← hact]) (by rw [hseq]) hbusy'
    · have hpend : s.seq.cplPend = true := by
        by_contra hp; exact ho ((h.active_one hact).2 hp).2
      rw [h.pend_idle hpend] at hbusy; cases hbusy

/-- R175 keeps the invariants. -/
theorem execUStopH1_inv {s t : State} (hi : Inv s) (ha : s.eng.armed = true) (h : execUStopH1 s.disarm = .next t) :
    Inv t := by
  obtain ⟨hsel, ht⟩ := microOp_next.1 h
  obtain ⟨hph, hhalf⟩ := (selects_uStopH1 s.eng).1 hsel
  have hw := hi.engine.wait_eq_false ha
  have hbusy := hi.engine.busy_of_armed ha
  have hrs := hi.walk.rs_eq_false (by simp [hph])
  have hscl := hi.line.high_half (.inr (.inr (.inr hph))) hhalf
  cases ht
  split
  · next hnext =>
    obtain ⟨-, hdir, hr, hfail⟩ := hi.walk.next_stop hnext
    exact {
      engine := .of_armed rfl hw rfl hi.engine.bit_le
      walk := .of_start hi.walk.fits rfl (hi.walk.stop_zero hph) rfl (fun _ => hdir) rfl hfail
        (fun hd => by rw [show s.eng.dir = false from hd] at hdir; cases hdir) (fun _ => hr)
      line := .of_start hw rfl (fun _ => ⟨hscl, rfl⟩) (fun h => by rw [show s.eng.rs = true from h] at hrs; cases hrs)
      seq := hi.seq.congr rfl hbusy.symm rfl
      buffer := hi.buffer.congr rfl rfl rfl
      err := hi.err }
  · next hnext =>
    have hphase {b : Bool} : (if b = true then Phase.done else Phase.failed).busy = false := by cases b <;> rfl
    exact {
      engine := .of_idle rfl hw hphase hi.engine.bit_le hscl rfl
      walk := .of_idle hi.walk.fits hphase hrs (by simpa using hnext)
        (fun hf => by simp [show s.eng.fail = true from hf])
      line := .of_idle hw hphase
      seq := hi.seq.complete hbusy hphase (!s.eng.fail) (State.complete_seq ..)
      buffer := hi.buffer.congr rfl rfl rfl
      err := by rw [ErrInv, State.complete_seq]; split <;> exact hi.err }

/-! ### Every step keeps the invariant -/

/-- R160: a TICK keeps the invariants. -/
theorem tick_inv {s t : State} {i : Instr} (hi : Inv s) (ha : s.eng.armed = true) (hsel : decodeUop s.tickSel = some i)
    (h : performUop i s.disarm = .next t) : Inv t := by
  rcases decodeUop_cases hsel with rfl | rfl | rfl | rfl | rfl | rfl | rfl | rfl | rfl | rfl | rfl | rfl | rfl | rfl
  · exact execUStartRs_inv hi ha h
  · exact execUStart_inv hi ha h
  · exact execUTxBitH0_inv hi ha h
  · exact execUTxBitH1_inv hi ha h
  · exact execUTxAckH0_inv hi ha h
  · exact absurd ((selects_uTxAckPoll _ _).1 hsel).1 nofun
  · exact execUTxAckH1_inv hi ha h
  · exact execURxBitH0_inv hi ha h
  · exact absurd ((selects_uRxBitPoll _ _).1 hsel).1 nofun
  · exact execURxBitH1_inv hi ha h
  · exact execURxMackH0_inv hi ha h
  · exact execURxMackH1_inv hi ha h
  · exact execUStopH0_inv hi ha h
  · exact execUStopH1_inv hi ha h

/-- R161: a POLL keeps the invariants: it performs one of the two polls. -/
theorem poll_inv {s t : State} {i : Instr} (hi : Inv s) (hw : s.eng.wait = true) (hsel : decodeUop s.uop = some i)
    (h : performUop i s = .next t) : Inv t := by
  rcases hi.engine.wait_poll hw with hp | hp <;> obtain rfl := Option.some.inj (hsel.symm.trans hp)
  · exact execUTxAckPoll_inv hi hw h
  · exact execURxBitPoll_inv hi hw h

/-- The invariants hold after reset, whatever was observed before it. -/
theorem resetWith_inv (p : Params) : Inv (State.resetWith p) where
  engine := .of_idle rfl rfl rfl (by decide : (0#4).toNat ≤ 8) rfl rfl
  walk := .of_idle ⟨Nat.zero_le _, Nat.zero_le _, by simp [State.resetWith, Txn.reset]⟩ rfl rfl rfl nofun
  line := .of_idle rfl rfl
  seq := .of_inactive rfl rfl nofun
  buffer := ⟨Memory.wf_nil, Memory.wf_nil, nofun, nofun⟩
  err := .inl rfl

/-- Settles O52: no transaction is in flight and no buffer holds a byte. -/
theorem invariantHoldsAfterReset : Obligations.InvariantHoldsAfterReset :=
  ⟨resetWith_inv, resetWith_inv _⟩

/-- Settles O53: each agent's effect keeps the invariants. -/
theorem stepKeepsTheInvariant : Obligations.StepKeepsTheInvariant := by
  intro s t hi h
  have hadvance {u : State} (hu : Inv u) : Inv u.advance := hu.observed rfl rfl rfl rfl rfl rfl rfl
  cases step_effect h with
  | host _ hu => exact hadvance (hu.inv hi)
  | tick _ ha hsel hu => exact hadvance (tick_inv hi ha hsel hu)
  | poll _ hw hsel hu => exact hadvance (poll_inv hi hw hsel hu)
  | dispatch _ hpend hu => exact hadvance (hu.inv hi hpend)
  | reset => exact (resetWith_inv s.cfg).observed rfl rfl rfl rfl rfl rfl rfl

end Sys2Proof.Machine
end

section
/-! PROOFS. The family of spec/10_state.md: which steps write the latches (R40), `viol` (R45) and the reading (R50). -/

namespace Sys2Proof.Machine

/-! ### The latches -/

/-- What a HOST or DISPATCH step does to the engine and its surroundings: nothing, or it begins a transaction, which
needs the engine not busy (R98, R154). -/
def QuietOrBegins (s t : State) : Prop :=
  (t.eng = s.eng ∧ t.latch = s.latch ∧ t.lines = s.lines ∧ t.bus = s.bus) ∨
  (s.eng.busy = false ∧ ∃ o, t.eng = (s.begun t.latch o).eng ∧ t.lines = { scl := false, sda := false })

/-- R98: an access of the host leaves the engine alone or begins a transaction. -/
theorem HostEffect.quietOrBegins {i : Instr} {s t : State} (h : HostEffect i s t) : QuietOrBegins s t := by
  cases h with
  | hostBegin hbusy => exact .inr ⟨hbusy, .host, rfl, rfl⟩
  | seqBegin k e hbusy => exact .inr ⟨hbusy, .seq, rfl, rfl⟩
  | _ => exact .inl ⟨rfl, rfl, rfl, rfl⟩

/-- R235: a dispatch operation leaves the engine alone or begins a transaction. -/
theorem DispatchEffect.quietOrBegins {s t : State} (h : DispatchEffect s.consumeCompletion t) :
    QuietOrBegins s t := by
  cases h with
  | issue k hbusy => rw [State.enter_begun]; exact .inr ⟨hbusy, .seq, rfl, rfl⟩
  | _ => exact .inl ⟨rfl, rfl, rfl, rfl⟩

/-- R9: no access of the host writes the parameters. -/
theorem HostEffect.cfg {i : Instr} {s t : State} (h : HostEffect i s t) : t.cfg = s.cfg := by
  cases h <;> rfl

/-- R241 to R247: what no dispatch operation writes. -/
theorem DispatchEffect.frame {s t : State} (h : DispatchEffect s t) : t.cfg = s.cfg ∧ t.viol = s.viol := by
  cases h with
  | issue => simp
  | _ => exact ⟨rfl, rfl⟩

/-- R98, R154: a HOST or DISPATCH step leaves the engine alone or begins a transaction. -/
theorem StepEffect.quietOrBegins {s t : State} (h : StepEffect s t) (hev : s.pins.ev = 0#3 ∨ s.pins.ev = 3#3) :
    QuietOrBegins s t := by
  cases h with
  | host _ hu => exact hu.quietOrBegins
  | dispatch _ _ hu => exact hu.quietOrBegins
  | tick hev' | poll hev' | reset hev' => simp [hev'] at hev

/-- R40: of the other steps only a RESET writes the latches. -/
theorem StepEffect.latch_eq {s t : State} (h : StepEffect s t) (hev : ¬(s.pins.ev = 0#3 ∨ s.pins.ev = 3#3)) :
    t.latch = s.latch ∨ s.pins.ev = 4#3 := by
  cases h with
  | host hev' => exact absurd (.inl hev') hev
  | dispatch hev' => exact absurd (.inr hev') hev
  | tick _ _ hsel hu | poll _ _ hsel hu => exact .inl (performUop_frame hsel hu).latch
  | reset hev' => exact .inr hev'

/-- R9: no step writes the parameters. -/
theorem StepEffect.cfg {s t : State} (h : StepEffect s t) : t.cfg = s.cfg := by
  cases h with
  | host _ hu => exact hu.cfg
  | tick _ _ hsel hu | poll _ _ hsel hu => exact (performUop_frame hsel hu).cfg
  | dispatch _ _ hu => exact hu.frame.1
  | reset => rfl

/-- Settles O44: the engine's own steps keep the latches, and the others write them by BEGIN or reset only. -/
theorem onlyBeginAndResetWriteTheLatches : Obligations.OnlyBeginAndResetWriteTheLatches := by
  intro s t h
  have he := step_effect h
  refine ⟨?_, fun hbusy hev => (he.quietOrBegins hev).resolve_right (by simp [hbusy]), he.cfg⟩
  by_cases hev : s.pins.ev = 0#3 ∨ s.pins.ev = 3#3
  · rcases he.quietOrBegins hev with ⟨-, hlatch, -⟩ | ⟨hbusy, hbegun⟩
    · exact .inl hlatch
    · exact .inr (.inr ⟨hbusy, hev, hbegun⟩)
  · exact (he.latch_eq hev).imp_right .inl

/-! ### `viol` -/

/-- R45, R342: an access of the host sets `viol` only where it violates the contract, and never clears it. -/
theorem HostEffect.viol {i : Instr} {s t : State} (h : HostEffect i s t) :
    t.viol = s.viol ∨ (t.viol = true ∧ s.violates i) := by
  cases h with
  | refusal c hv => exact .inr ⟨rfl, hv⟩
  | _ => exact .inl rfl

/-- R45: what a step does to `viol`. -/
theorem StepEffect.viol {s t : State} (h : StepEffect s t) :
    (s.pins.ev = 4#3 ∧ t.viol = false) ∨ (s.pins.ev ≠ 4#3 ∧
      (t.viol = s.viol ∨ (t.viol = true ∧ s.pins.ev = 0#3 ∧ s.violates (decodeHostOp s.cfg s.pins.host)))) := by
  cases h with
  | host hev hu => exact .inr ⟨by simp [hev], hu.viol.imp_right fun ⟨ht, hv⟩ => ⟨ht, hev, hv⟩⟩
  | tick hev _ hsel hu => exact .inr ⟨by simp [hev], .inl (performUop_frame hsel hu).viol⟩
  | poll hev _ hsel hu => exact .inr ⟨by simp [hev], .inl (performUop_frame hsel hu).viol⟩
  | dispatch hev _ hu => exact .inr ⟨by simp [hev], .inl hu.frame.2⟩
  | reset hev => exact .inl ⟨hev, rfl⟩

/-- Settles O45: of the effects of a step only a refused command sets `viol`, and only the reset clears it. -/
theorem violIsSticky : Obligations.ViolIsSticky := by
  intro s t h
  rcases (step_effect h).viol with ⟨hev, ht⟩ | ⟨hev, ht | ⟨ht, hviol⟩⟩
  · exact ⟨fun _ hne => absurd hev hne, fun _ => ht, fun h1 => by rw [ht] at h1; cases h1⟩
  · exact ⟨fun hs _ => ht.trans hs, fun h4 => absurd h4 hev, fun h1 => .inl (ht ▸ h1)⟩
  · exact ⟨fun _ _ => ht, fun h4 => absurd h4 hev, fun _ => .inr hviol⟩

/-! ### The reading -/

/-- R257: the humidity of any raw value is in range. -/
theorem humWord_le (rh : Raw) : (humWord rh).toNat ≤ 9999 := by
  have h := rh.isLt
  rw [humWord, BitVec.toNat_ofNat, Nat.shiftRight_eq_div_pow]
  exact (Nat.mod_le ..).trans (by omega)

/-- R258: the temperature of any raw value is in range. -/
theorem tempWord_bounds (rt : Raw) : -5000 ≤ (tempWord rt).toInt ∧ (tempWord rt).toInt ≤ 14999 := by
  have h := rt.isLt
  rw [tempWord, BitVec.toInt_ofInt, Nat.shiftRight_eq_div_pow, Int.bmod_eq_of_le (by omega) (by omega)]
  omega

/-- R50: no access of the host writes the reading. -/
theorem HostEffect.reading {i : Instr} {s t : State} (h : HostEffect i s t) :
    t.seq.hum = s.seq.hum ∧ t.seq.temp = s.seq.temp ∧ t.seq.ts = s.seq.ts := by
  cases h <;> exact ⟨rfl, rfl, rfl⟩

/-- Settles O48: of the effects of a step only S.READ.OK and the reset write the reading. -/
theorem readingChangesOnlyAtReadCompletion : Obligations.ReadingChangesOnlyAtReadCompletion := by
  intro s t h hne
  cases step_effect h with
  | host _ hu => exact .inl hu.reading
  | tick _ _ hsel hu | poll _ _ hsel hu =>
    have hf := performUop_frame hsel hu
    exact .inl ⟨hf.hum, hf.temp, hf.ts⟩
  | dispatch hev _ hu =>
    cases hu with
    | fault => exact .inl ⟨rfl, rfl, rfl⟩
    | issue k => exact .inl (by simp)
    | reading hsel => exact .inr ⟨hev, hsel, rfl, rfl, rfl, rfl, humWord_le _, tempWord_bounds _⟩
  | reset hev => exact absurd hev hne

end Sys2Proof.Machine
end

section
/-! PROOFS. The family of spec/10_state.md: the state after reset (R60), the bits of STATUS (R52), and that no read shows
the latches (R40). -/

namespace Sys2Proof.Machine

/-! ### Reset -/

/-- Settles O15: EV.RESET answers the reset state with the parameters kept, and RST in the history. -/
theorem resetPutsEveryFieldAtItsResetValue : Obligations.ResetPutsEveryFieldAtItsResetValue := by
  intro s
  exact ⟨s.afterReset, rfl, rfl, rfl, rfl, rfl, Memory.read_nil, Memory.read_nil, rfl, rfl, rfl, rfl, rfl, rfl, rfl, rfl⟩

/-- Settles O16: the reset state, field by field, and the two reads evaluated in it. -/
theorem stateAfterReset : Obligations.StateAfterReset :=
  ⟨rfl, rfl, rfl, rfl, rfl, Memory.read_nil, Memory.read_nil, rfl, rfl, rfl, rfl⟩

/-! ### Reads -/

/-- R112: what the mask of a row with one word index leaves fixes `we` and `idx`. -/
theorem hostFields_of_masked {w m : BitVec 39} (h : w &&& 0x7F00000000#39 = m) :
    hostWe w = hostWe m ∧ hostIdx w = hostIdx m := by
  have hmask : BitVec.extractLsb' 32 6 0x7F00000000#39 = BitVec.allOnes 6 := by decide
  subst h
  constructor
  · simp [hostWe]
  · rw [hostIdx, hostIdx, BitVec.extractLsb'_and, hmask, BitVec.and_allOnes]

/-- R118: a word without `we` decodes to a read row. -/
theorem decodeHostOp_of_read {p : Params} {w : BitVec 39} (h : hostWe w = false) :
    decodeHostOp p w = decodeRead p (hostIdx w) := by
  simp [decodeHostOp, h]

/-- Settles O43: the value of every read row is made of other fields. -/
theorem latchesCannotBeRead : Obligations.LatchesCannotBeRead := by
  intro s l w hw
  rw [decodeHostOp_of_read hw]
  unfold decodeRead
  repeat' split
  all_goals exact ⟨_, rfl, rfl⟩

/-- R52: a bit of a register word, from one of its fields. -/
theorem getLsbD_field {n : Nat} (v : BitVec n) (k i : Nat) :
    (field v k).getLsbD i = (decide (k ≤ i ∧ i < 32) && v.getLsbD (i - k)) := by
  rw [field, BitVec.getLsbD_shiftLeft, BitVec.getLsbD_setWidth]
  by_cases hi : i < 32
  · have hsub : i - k < 32 := by omega
    by_cases hk : k ≤ i <;> simp [*]
  · simp [hi]

/-- R52: a bit of a register word, from one of its flags. -/
theorem getLsbD_flag (v : Bool) (k i : Nat) : (flag v k).getLsbD i = (decide (i = k ∧ i < 32) && v) := by
  rw [flag, getLsbD_field, BitVec.getLsbD_ofBool]
  have hsub : (k ≤ i ∧ i < 32) ∧ i - k = 0 ↔ i = k ∧ i < 32 := by omega
  rw [← Bool.and_assoc, ← Bool.decide_and, decide_eq_decide.2 hsub]

/-- R52: a slice of a register word is the field that stands there. -/
theorem extractLsb'_field_same {n : Nat} (v : BitVec n) {k : Nat} (h : k + n ≤ 32) :
    (field v k).extractLsb' k n = v := by
  refine BitVec.eq_of_getLsbD_eq fun i hi => ?_
  have hlt : k + i < 32 := by omega
  rw [BitVec.getLsbD_extractLsb', getLsbD_field, Nat.add_sub_cancel_left]
  simp [hi, hlt]

/-- R52: a field has no bit in a slice of a register word beside it. -/
theorem extractLsb'_field_disjoint {n : Nat} (v : BitVec n) {j k m : Nat} (h : j + m ≤ k ∨ k + n ≤ j) :
    (field v k).extractLsb' j m = 0#m := by
  refine BitVec.eq_of_getLsbD_eq fun i hi => ?_
  rw [BitVec.getLsbD_extractLsb', getLsbD_field, BitVec.getLsbD_zero]
  rcases h with h | h
  · have hlt : ¬k ≤ j + i := by omega
    simp [hlt]
  · simp [BitVec.getLsbD_of_ge v (j + i - k) (by omega)]

/-- R52: STATUS after reset does not depend on the parameters. -/
theorem statusWord_resetWith (p : Params) : (State.resetWith p).statusWord = 0x00300000#32 := by
  change State.reset.statusWord = _
  decide

/-- R52: the slices of STATUS. -/
theorem statusWord_slices (s : State) :
    s.statusWord.extractLsb' 0 3 = s.eng.phase.code ∧ s.statusWord.extractLsb' 8 4 = s.seq.state.code ∧
      s.statusWord.extractLsb' 12 3 = s.seq.err.code ∧ s.statusWord.extractLsb' 22 10 = 0#10 := by
  refine ⟨?_, ?_, ?_, ?_⟩ <;>
    simp [State.statusWord, flag, BitVec.extractLsb'_or, extractLsb'_field_same, extractLsb'_field_disjoint]

/-- Settles O36: each bit and slice of STATUS comes from one field, and the fields stand beside each other. -/
theorem statusReadShowsTheState : Obligations.StatusReadShowsTheState := by
  refine ⟨fun p w h => ?_, fun s => ⟨s.statusWord, rfl, ?_⟩⟩
  · obtain ⟨hwe, hidx⟩ := hostFields_of_masked h
    rw [decodeHostOp_of_read (hwe.trans rfl), hidx]
    rfl
  · obtain ⟨hphase, hstate, herr, hhigh⟩ := statusWord_slices s
    refine ⟨hphase, ?_, ?_, ?_, ?_, ?_, hstate, herr, ?_, ?_, ?_, ?_, ?_, ?_, ?_, hhigh,
      fun p hs => hs ▸ statusWord_resetWith p⟩
    all_goals
      simp only [State.statusWord, BitVec.getLsbD_or, getLsbD_field, getLsbD_flag]
      simp

end Sys2Proof.Machine
end

section
/-! PROOFS. The family of spec/10_state.md: a byte crosses the bus most significant bit first (R32), in both directions. -/

namespace Sys2Proof.Machine

/-! ### Several steps, with supplied inputs -/

/-- The next step, where it is known. -/
theorem steps_succ {n : Nat} {s t : State} (h : step s = .next t) : steps (n + 1) s = steps n t := by
  rw [steps, h]

/-- `m + n` steps are `m` steps and then `n`. -/
theorem steps_add {m n : Nat} {s t : State} (h : steps m s = .next t) : steps (m + n) s = steps n t := by
  induction m generalizing s with
  | zero => cases h; rw [Nat.zero_add]
  | succ m ih =>
    rw [Nat.succ_add]
    cases hs : step s with
    | next u => rw [steps_succ hs] at h ⊢; exact ih h
    | fault f => simp [steps, hs] at h
    | refused r => simp [steps, hs] at h

/-- What the supplied inputs say of the next step and of the ones after it. -/
theorem inputs_take_cons {α : Type} {s : State} {f : Pins → α} {n : Nat} {a : α} {as : List α}
    (h : (s.inputs.take (n + 1)).map f = a :: as) : f s.pins = a ∧ (s.inputs.tail.take n).map f = as := by
  unfold State.pins
  cases hin : s.inputs with
  | nil => rw [hin] at h; cases h
  | cons p ps => rw [hin] at h; exact List.cons.inj h

/-- R160: on the code 1 the next of several steps performs the micro-operation that the armed engine selects, and the
inputs of the others remain. -/
theorem steps_tick {s u : State} {i : Instr} {n : Nat} {evs : List (BitVec 3)} (herr : ErrInv s)
    (hin : (s.inputs.take (n + 1)).map Pins.ev = 1#3 :: evs) (harmed : s.eng.armed = true)
    (hsel : decodeUop s.tickSel = some i) (hu : performUop i s.disarm = .next u) :
    steps (n + 1) s = steps n u.advance ∧ ErrInv u.advance ∧ (u.advance.inputs.take n).map Pins.ev = evs := by
  obtain ⟨hev, hin⟩ := inputs_take_cons hin
  have hf := performUop_frame hsel hu
  refine ⟨steps_succ ?_, by simpa [ErrInv, hf.err] using herr, by simpa [hf.inputs] using hin⟩
  rw [step_of_decodeEv (i := .evTick) herr.reservedHeld_eq_false (hev ▸ rfl), exec, execEvTick, if_pos harmed, hsel]
  exact congrArg afterStep hu

/-- R161: on the code 2 the next of several steps performs the micro-operation that the waiting engine selects, and the
inputs of the others remain. -/
theorem steps_poll {s u : State} {i : Instr} {n : Nat} {evs : List (BitVec 3)} (herr : ErrInv s)
    (hin : (s.inputs.take (n + 1)).map Pins.ev = 2#3 :: evs) (hwait : s.eng.wait = true)
    (hsel : decodeUop s.uop = some i) (hu : performUop i s = .next u) :
    steps (n + 1) s = steps n u.advance ∧ ErrInv u.advance ∧ (u.advance.inputs.take n).map Pins.ev = evs := by
  obtain ⟨hev, hin⟩ := inputs_take_cons hin
  have hf := performUop_frame hsel hu
  refine ⟨steps_succ ?_, by simpa [ErrInv, hf.err] using herr, by simpa [hf.inputs] using hin⟩
  rw [step_of_decodeEv (i := .evPoll) herr.reservedHeld_eq_false (hev ▸ rfl), exec, execEvPoll, if_pos hwait, hsel]
  exact congrArg afterStep hu

/-! ### A transmitted byte -/

/-- R164, R165: the state after the two TICKs of a data bit. -/
def State.bitSent (s : State) : State := { s with
  eng := { s.eng with bit := s.eng.bit + 1#4 }
  lines := { scl := false, sda := msbFirst s.eng.scratch s.eng.bit }
  bus := s.bus ++ [.setSda (msbFirst s.eng.scratch s.eng.bit), .setScl true, .setScl false]
  inputs := s.inputs.drop 2
  draws := s.draws + 2 }

/-- The first half of a slot of a byte being sent is next. -/
structure AtSentSlot (s : State) : Prop where
  err : ErrInv s
  phase : s.eng.phase = .addr ∨ s.eng.phase = .write
  half : s.eng.half = false
  armed : s.eng.armed = true

/-- R164, R165: two TICKs send one data bit. -/
theorem steps_bitSent {s : State} (h : AtSentSlot s) (hbit : s.eng.bit.toNat < 8)
    (hin : (s.inputs.take 2).map Pins.ev = [1#3, 1#3]) : steps 2 s = .next s.bitSent := by
  obtain ⟨herr, hph, hhalf, harmed⟩ := h
  have hsel : decodeUop s.tickSel = some .uTxBitH0 := (selects_uTxBitH0 _).2 ⟨hph, hbit, hhalf⟩
  obtain ⟨hstep, herr, hin⟩ := steps_tick herr hin harmed hsel (microOp_selected hsel rfl)
  have hsel := (selects_uTxBitH1 { s.eng with half := true }).2 ⟨hph, hbit, rfl⟩
  obtain ⟨hstep', -, -⟩ := steps_tick herr hin rfl hsel (microOp_selected hsel rfl)
  rw [hstep, hstep', steps]
  simp [State.bitSent, State.arm, State.advance, hhalf, harmed, List.drop_add_one_eq_tail_drop]

/-- After a data bit the first half of the next slot is next. -/
theorem AtSentSlot.bitSent {s : State} (h : AtSentSlot s) : AtSentSlot s.bitSent := ⟨h.err, h.phase, h.half, h.armed⟩

/-- R32: the next `2 * n` TICKs send `n` data bits. -/
theorem steps_bitsSent {n : Nat} {s : State} (h : AtSentSlot s) (hbit : s.eng.bit.toNat + n ≤ 8)
    (hin : (s.inputs.take (2 * n)).map Pins.ev = List.replicate (2 * n) 1#3) :
    steps (2 * n) s = .next (State.bitSent^[n] s) := by
  induction n generalizing s with
  | zero => rfl
  | succ n ih =>
    have hin₁ : (s.inputs.take 2).map Pins.ev = [1#3, 1#3] := by
      simpa [List.take_take] using congrArg (List.take 2) hin
    have hin₂ : (s.bitSent.inputs.take (2 * n)).map Pins.ev = List.replicate (2 * n) 1#3 := by
      simpa [State.bitSent, List.drop_take, Nat.mul_succ] using congrArg (List.drop 2) hin
    have hbit' : s.bitSent.eng.bit.toNat + n ≤ 8 := by simp only [State.bitSent]; bv_omega
    rw [Nat.mul_succ, Nat.add_comm, steps_add (steps_bitSent h (by omega) hin₁), ih h.bitSent hbit' hin₂,
      Function.iterate_succ_apply]

/-- Settles O55: eight data bits, sent one by one. -/
theorem transmittedByteGoesMsbFirst : Obligations.TransmittedByteGoesMsbFirst := by
  intro s herr hph hbit hhalf harmed hin
  rw [steps_bitsSent (n := 8) ⟨herr, hph, hhalf, harmed⟩ (by simp [hbit]) hin]
  simp [State.bitSent, hbit, msbFirst, List.range_succ]

/-! ### A received byte -/

/-- R170: a poll that reads SCL high takes a data bit in. -/
theorem execURxBitPoll_of_high {s : State} (hsel : decodeUop s.uop = some .uRxBitPoll) (hhigh : s.clockLevel = true) :
    execURxBitPoll s = .next ({ (s.emit (.readScl true)).emit (.readSda s.dataLevel) with
      eng := { s.eng with scratch := shiftIn s.eng.scratch s.dataLevel, wait := false, half := true } } : State).arm :=
  microOp_selected hsel (congrArg some (if_pos hhigh))

/-- R171: the end of a bit slot stores the byte after its eighth bit. -/
theorem execURxBitH1_of_lt {s : State} (hsel : decodeUop s.tickSel = some .uRxBitH1)
    (hlt : s.eng.byte.toNat < s.cfg.rmax) :
    execURxBitH1 s = .next ({ s.setClock false with
      eng := { s.eng with half := false, bit := s.eng.bit + 1#4 }
      rbuf := if s.eng.bit + 1#4 = 8#4 then s.rbuf.write s.eng.byte.toNat s.eng.scratch else s.rbuf } : State).arm := by
  refine microOp_selected hsel ?_
  by_cases h8 : s.eng.bit + 1#4 = 8#4
  · simp only [if_pos h8]; exact if_pos hlt
  · simp only [if_neg h8]; rfl

/-- R169 to R171: the state after TICK, POLL and TICK of a bit slot in which the peer puts `v` on SDA. -/
def State.bitReceived (s : State) (v : Bool) : State := { s with
  eng := { s.eng with bit := s.eng.bit + 1#4, scratch := shiftIn s.eng.scratch v }
  lines := { scl := false, sda := true }
  rbuf := if s.eng.bit + 1#4 = 8#4 then s.rbuf.write s.eng.byte.toNat (shiftIn s.eng.scratch v) else s.rbuf
  bus := s.bus ++ [.setSda true, .setScl true, .readScl true, .readSda v, .setScl false]
  inputs := s.inputs.drop 3
  draws := s.draws + 3 }

/-- The first half of a slot of a byte being received is next. -/
structure AtReceivedSlot (s : State) : Prop where
  err : ErrInv s
  phase : s.eng.phase = .read
  half : s.eng.half = false
  armed : s.eng.armed = true
  wait : s.eng.wait = false
  byte_lt : s.eng.byte.toNat < s.cfg.rmax

/-- After a data bit the first half of the next slot is next. -/
theorem AtReceivedSlot.bitReceived {s : State} (h : AtReceivedSlot s) (v : Bool) : AtReceivedSlot (s.bitReceived v) :=
  ⟨h.err, h.phase, h.half, h.armed, h.wait, h.byte_lt⟩

/-- R169 to R171: TICK, POLL and TICK receive one data bit. -/
theorem steps_bitReceived {s : State} {v : Bool} (h : AtReceivedSlot s) (hbit : s.eng.bit.toNat < 8)
    (hin : (s.inputs.take 3).map Pins.ev = [1#3, 2#3, 1#3])
    (hpeer : ∀ p, s.inputs[1]? = some p → p.scl = true ∧ p.sda = v) : steps 3 s = .next (s.bitReceived v) := by
  obtain ⟨herr, hph, hhalf, harmed, hwait, hlt⟩ := h
  have hsel : decodeUop s.tickSel = some .uRxBitH0 := (selects_uRxBitH0 _).2 ⟨hph, hbit, hhalf⟩
  obtain ⟨hstep, herr, hin⟩ := steps_tick herr hin harmed hsel (microOp_selected hsel rfl)
  obtain ⟨p₀, p, ps, hp⟩ : ∃ p₀ p ps, s.inputs = p₀ :: p :: ps := by
    match hs : s.inputs with
    | [] | [_] => simp [hs] at hin
    | p₀ :: p :: ps => exact ⟨p₀, p, ps, rfl⟩
  obtain ⟨hscl, hsda⟩ := hpeer p (by rw [hp]; rfl)
  have hsel := (selects_uRxBitPoll { s.eng with wait := true } true).2 ⟨rfl, hph, hbit, hhalf⟩
  obtain ⟨hstep', herr, hin⟩ := steps_poll herr hin rfl hsel
    (execURxBitPoll_of_high hsel (by simp [State.clockLevel, State.pins, State.advance, hp, hscl]))
  have hsel := (selects_uRxBitH1 { s.eng with half := true }).2 ⟨hph, hbit, rfl⟩
  obtain ⟨hstep'', -, -⟩ := steps_tick herr hin rfl hsel (execURxBitH1_of_lt hsel hlt)
  rw [hstep, hstep', hstep'', steps]
  simp [State.bitReceived, State.arm, State.advance, State.dataLevel, State.pins, hhalf, harmed, hwait, hp, hsda]

/-- R169 to R171: `n` rounds of TICK, POLL and TICK receive the `n` data bits `vs`. -/
theorem steps_bitsReceived {vs : List Bool} {s : State} (h : AtReceivedSlot s)
    (hbit : s.eng.bit.toNat + vs.length ≤ 8)
    (hin : (s.inputs.take (3 * vs.length)).map Pins.ev = (List.replicate vs.length [1#3, 2#3, 1#3]).flatten)
    (hpeer : ∀ (k : Nat) (hk : k < vs.length), ∀ p, s.inputs[3 * k + 1]? = some p → p.scl = true ∧ p.sda = vs[k]) :
    steps (3 * vs.length) s = .next (vs.foldl State.bitReceived s) := by
  induction vs generalizing s with
  | nil => rfl
  | cons v vs ih =>
    rw [List.length_cons] at hbit hin
    have hin₁ : (s.inputs.take 3).map Pins.ev = [1#3, 2#3, 1#3] := by
      simpa [List.take_take, List.replicate_succ] using congrArg (List.take 3) hin
    have hin₂ : ((s.bitReceived v).inputs.take (3 * vs.length)).map Pins.ev =
        (List.replicate vs.length [1#3, 2#3, 1#3]).flatten := by
      simpa [State.bitReceived, List.drop_take, Nat.mul_succ, List.replicate_succ] using congrArg (List.drop 3) hin
    have hpeer₁ := hpeer 0 (Nat.succ_pos _)
    have hpeer₂ (k : Nat) (hk : k < vs.length) (p : Pins) (hp : (s.bitReceived v).inputs[3 * k + 1]? = some p) :
        p.scl = true ∧ p.sda = vs[k] := by
      rw [State.bitReceived, List.getElem?_drop, show 3 + (3 * k + 1) = 3 * (k + 1) + 1 by omega] at hp
      exact hpeer (k + 1) (Nat.succ_lt_succ hk) p hp
    have hbit' : (s.bitReceived v).eng.bit.toNat + vs.length ≤ 8 := by simp only [State.bitReceived]; bv_omega
    rw [List.length_cons, Nat.mul_succ, Nat.add_comm, steps_add (steps_bitReceived (v := v) h (by omega) hin₁ hpeer₁),
      ih (h.bitReceived v) hbit' hin₂ hpeer₂, List.foldl_cons]

/-- The bits of a byte, most significant first (R32). -/
def bitsMsbFirst (b : Byte) : List Bool := (List.range 8).map (fun k => b.getLsbD (7 - k))

/-- R32, R170: the bits of a byte, shifted in one by one, are the byte, whatever was there before. -/
theorem foldl_shiftIn (x b : Byte) : (bitsMsbFirst b).foldl shiftIn x = b := by
  refine BitVec.eq_of_getLsbD_eq fun i hi => ?_
  interval_cases i <;> simp [bitsMsbFirst, List.range_succ, shiftIn]

/-- Settles O56: eight data bits, received one by one. -/
theorem receivedByteIsAssembledMsbFirst : Obligations.ReceivedByteIsAssembledMsbFirst := by
  intro s b herr hph hbit hhalf harmed hwait hlt hin hpeer
  have hsteps := steps_bitsReceived (vs := bitsMsbFirst b) (s := s) ⟨herr, hph, hhalf, harmed, hwait, hlt⟩
    (by simp [hbit, bitsMsbFirst]) hin (fun k hk p hp => by
      simpa [bitsMsbFirst] using hpeer k (by simpa [bitsMsbFirst] using hk) p hp)
  refine ⟨s.rbuf.write s.eng.byte.toNat b, hsteps.trans ?_, fun a => ?_⟩
  · have hb := foldl_shiftIn s.eng.scratch b
    simp [State.bitReceived, bitsMsbFirst, List.range_succ, hbit] at hb ⊢
    simp [hb]
  · by_cases ha : a = s.eng.byte.toNat
    · subst ha; simp
    · rw [if_neg ha, Memory.read_write_ne _ _ ha]

end Sys2Proof.Machine
end

section
/-! PROOFS. The family of spec/20_memory.md: the accesses that change nothing (R85, R330, R331), and that reads and
register writes are idempotent (R86). -/

namespace Sys2Proof.Machine

/-! ### The fields of an access word -/

/-- R112: the word of an access holds its `we`. -/
@[simp] theorem hostWe_hostWord (we : Bool) (idx : Idx) (data : Word) : hostWe (hostWord we idx data) = we := by
  rw [hostWe, hostWord, BitVec.getLsbD_append, BitVec.getLsbD_append]
  simp

/-- R112: the word of an access holds its `idx`. -/
@[simp] theorem hostIdx_hostWord (we : Bool) (idx : Idx) (data : Word) : hostIdx (hostWord we idx data) = idx := by
  refine BitVec.eq_of_getLsbD_eq fun i hi => ?_
  rw [hostIdx, BitVec.getLsbD_extractLsb', hostWord, BitVec.getLsbD_append, BitVec.getLsbD_append]
  simp [hi]

/-- R124: what a read decodes to does not depend on its data. -/
theorem decodeHostOp_hostWord_read (p : Params) (idx : Idx) (data : Word) :
    decodeHostOp p (hostWord false idx data) = decodeRead p idx := by
  simp [decodeHostOp]

/-- R118: a word with `we` decodes to a write row. -/
theorem decodeHostOp_of_write {p : Params} {w : BitVec 39} (h : hostWe w = true) :
    decodeHostOp p w = decodeWrite p (hostIdx w) (hostData w) := by
  simp [decodeHostOp, h]

/-! ### The register map -/

/-- R84: the word index of a buffer, by its two parts. -/
theorem toNat_eq_of_bufIndex (idx : Idx) :
    idx.toNat = 16 * (idx.extractLsb' 4 2).toNat + (bufIndex idx).toNat := by
  revert idx; decide

/-- R84: the word indices of WBUF. -/
theorem isWbufIdx_iff (p : Params) (idx : Idx) :
    isWbufIdx p idx = true ↔ 16 ≤ idx.toNat ∧ idx.toNat < 16 + p.wmax := by
  have hsum := toNat_eq_of_bufIndex idx
  have hp := Params.bounds p
  simp only [isWbufIdx, wbufMapped, Bool.and_eq_true, beq_iff_eq, decide_eq_true_eq, BitVec.toNat_eq,
    BitVec.toNat_ofNat]
  omega

/-- R84: the word indices of RBUF. -/
theorem isRbufIdx_iff (p : Params) (idx : Idx) :
    isRbufIdx p idx = true ↔ 32 ≤ idx.toNat ∧ idx.toNat < 32 + p.rmax := by
  have hsum := toNat_eq_of_bufIndex idx
  have hp := Params.bounds p
  simp only [isRbufIdx, rbufMapped, Bool.and_eq_true, beq_iff_eq, decide_eq_true_eq, BitVec.toNat_eq,
    BitVec.toNat_ofNat]
  omega

/-- R84: the word indices that no register has. -/
theorem unmappedIdx_iff (p : Params) (idx : Idx) : unmappedIdx p idx = true ↔
    12 ≤ idx.toNat ∧ ¬isWbufIdx p idx = true ∧ ¬isRbufIdx p idx = true := by
  have hp := Params.bounds p
  rw [isWbufIdx_iff, isRbufIdx_iff]
  simp only [unmappedIdx, Bool.or_eq_true, Bool.and_eq_true, decide_eq_true_eq]
  omega

/-- R330: the word indices of the read-only registers. -/
theorem readOnlyIdx_iff (p : Params) (idx : Idx) : readOnlyIdx p idx = true ↔
    idx.toNat = 1 ∨ (6 ≤ idx.toNat ∧ idx.toNat ≤ 11) ∨ isRbufIdx p idx = true := by
  rw [isRbufIdx_iff]
  simp only [readOnlyIdx, Bool.or_eq_true, Bool.and_eq_true, decide_eq_true_eq, or_assoc]

/-- R118: from index 12 on only the buffers have a read row of their own. -/
theorem decodeRead_of_ge {p : Params} {idx : Idx} (h : 12 ≤ idx.toNat) :
    decodeRead p idx = if isWbufIdx p idx then .rdWbuf (bufIndex idx)
      else if isRbufIdx p idx then .rdRbuf (bufIndex idx) else .rdUnmapped idx := by
  unfold decodeRead
  split
  case h_13 => rfl
  all_goals omega

/-- R118: beside CMD and the descriptor registers only WBUF has a write row of its own. -/
theorem decodeWrite_of_not_register {p : Params} {idx : Idx} (data : Word) (h : idx.toNat = 1 ∨ 6 ≤ idx.toNat) :
    decodeWrite p idx data = if isWbufIdx p idx then .wrWbuf (bufIndex idx) data
      else if readOnlyIdx p idx then .wrRo idx else .wrUnmapped idx := by
  unfold decodeWrite
  split
  case h_6 => rfl
  all_goals omega

/-- R324: a read of an unmapped index is RD.UNMAPPED. -/
theorem decodeRead_of_unmapped {p : Params} {idx : Idx} (h : unmappedIdx p idx = true) :
    decodeRead p idx = .rdUnmapped idx := by
  obtain ⟨hge, hw, hr⟩ := (unmappedIdx_iff p idx).1 h
  rw [decodeRead_of_ge hge, if_neg hw, if_neg hr]

/-- R330: a write to a read-only register is WR.RO. -/
theorem decodeWrite_of_readOnly {p : Params} {idx : Idx} (data : Word) (h : readOnlyIdx p idx = true) :
    decodeWrite p idx data = .wrRo idx := by
  have hp := Params.bounds p
  have hidx := (readOnlyIdx_iff p idx).1 h
  rw [isRbufIdx_iff] at hidx
  have hw : ¬isWbufIdx p idx = true := by rw [isWbufIdx_iff]; omega
  rw [decodeWrite_of_not_register data (by omega), if_neg hw, if_pos h]

/-- R331: a write to an unmapped index is WR.UNMAPPED. -/
theorem decodeWrite_of_unmapped {p : Params} {idx : Idx} (data : Word) (h : unmappedIdx p idx = true) :
    decodeWrite p idx data = .wrUnmapped idx := by
  obtain ⟨hge, hw, hr⟩ := (unmappedIdx_iff p idx).1 h
  have hro : ¬readOnlyIdx p idx = true := by
    rw [isRbufIdx_iff] at hr
    rw [readOnlyIdx_iff, isRbufIdx_iff]; omega
  rw [decodeWrite_of_not_register data (.inr (by omega)), if_neg hw, if_neg hro]

/-! ### Accesses without effect -/

/-- R310, R324: a read of CMD or of an unmapped index returns 0. -/
theorem exec_decodeRead_zero {s : State} {idx : Idx} (h : unmappedIdx s.cfg idx = true ∨ idx = 0#6) :
    exec (decodeRead s.cfg idx) s = .next (s.hostReturn 0#32) := by
  rcases h with h | rfl
  · rw [decodeRead_of_unmapped h]; rfl
  · rfl

/-- R330, R331: a write to a read-only register or to an unmapped index changes nothing. -/
theorem exec_decodeWrite_inert {s : State} {idx : Idx} (data : Word)
    (h : unmappedIdx s.cfg idx = true ∨ readOnlyIdx s.cfg idx = true) :
    exec (decodeWrite s.cfg idx data) s = .next s := by
  rcases h with h | h
  · rw [decodeWrite_of_unmapped data h]; rfl
  · rw [decodeWrite_of_readOnly data h]; rfl

/-- Settles O39: by the register map, an access without effect decodes to an operation without effect. -/
theorem inertAccesses : Obligations.InertAccesses := by
  refine ⟨fun s idx => ⟨rfl, rfl, rfl, rfl⟩, fun s idx data => ⟨fun h => ?_, fun h => ?_⟩, fun p idx data => ?_,
    fun s p w => ?_⟩
  · rw [decodeHostOp_hostWord_read]; exact exec_decodeRead_zero h
  · rw [decodeHostOp_of_write (hostWe_hostWord ..), hostIdx_hostWord]; exact exec_decodeWrite_inert _ h
  · rw [decodeHostOp_hostWord_read, decodeHostOp_hostWord_read]
  · rw [← performHostOp_eq_exec]; exact performHostOp_decodeHostOp_next p w s

/-! ### Accesses done twice -/

/-- Placing a cell a second time finds it there. -/
theorem Memory.place_place (m : Memory) (a : Nat) (b : Byte) : (m.place a b).place a b = m.place a b := by
  induction m with
  | nil => simp [Memory.place]
  | cons c t ih =>
    obtain ⟨k, v⟩ := c
    rcases Nat.lt_trichotomy a k with hlt | rfl | hgt
    · simp [Memory.place, hlt]
    · simp [Memory.place]
    · simp [Memory.place, hgt.not_gt, hgt.ne', ih]

/-- Taking a cell away a second time finds it gone. -/
theorem Memory.drop_drop (m : Memory) (a : Nat) : (m.drop a).drop a = m.drop a := by
  simp [Memory.drop, List.filter_filter]

/-- A second write of the same byte changes nothing. -/
theorem Memory.write_write (m : Memory) (a : Nat) (b : Byte) : (m.write a b).write a b = m.write a b := by
  by_cases hb : b = 0#8
  · simp only [Memory.write, if_pos hb, drop_drop]
  · simp only [Memory.write, if_neg hb, place_place]

/-- R329: a second WR.WBUF of the same byte changes nothing. -/
theorem execWrWbuf_again {j : BitVec 4} {data : Word} {s t : State} (h : execWrWbuf j data s = .next t) :
    execWrWbuf j data t = .next t := by
  cases h
  by_cases hj : j.toNat < s.cfg.wmax
  · simp [execWrWbuf, hj, Memory.write_write]
  · simp [execWrWbuf, hj]

/-- R86: a read returns a value that depends on no earlier read, and changes nothing else. -/
theorem exec_decodeRead_answers (p : Params) (idx : Idx) (s : State) :
    ∃ v, exec (decodeRead p idx) s = .next (s.hostReturn v) ∧
      ∀ u, exec (decodeRead p idx) (s.hostReturn u) = .next ((s.hostReturn u).hostReturn v) := by
  unfold decodeRead
  repeat' split
  all_goals exact ⟨_, rfl, fun _ => rfl⟩

/-- R118, R291: the commands. -/
theorem decodeCmd_cases (data : Word) : decodeCmd data = .cmdNop ∨ decodeCmd data = .cmdEngBegin ∨
    decodeCmd data = .cmdSeqInit ∨ decodeCmd data = .cmdSeqRequestRead ∨
      decodeCmd data = .cmdReserved (data.extractLsb' 0 2) := by
  unfold decodeCmd
  split <;> simp

/-- Settles O42: a read's value is made of no earlier result, and a register write stores the same slice again. -/
theorem readsHaveNoSideEffect : Obligations.ReadsHaveNoSideEffect := by
  refine ⟨fun s w hw => ?_, ?_, fun p w hw => ?_⟩
  · rw [decodeHostOp_of_read hw]
    obtain ⟨v, hv, hagain⟩ := exec_decodeRead_answers s.cfg (hostIdx w) s
    exact ⟨v, hv, hagain v⟩
  · rintro s t i data j (rfl | rfl | rfl | rfl | rfl) h
    case inr.inr.inr.inr => exact execWrWbuf_again h
    all_goals (cases h; rfl)
  · obtain ⟨hwe, hidx⟩ := hostFields_of_masked hw
    rw [decodeHostOp_of_write (hwe.trans rfl), hidx]
    exact (decodeCmd_cases (hostData w)).imp_right (.imp_right (.imp_right (.imp_right fun h => ⟨_, h⟩)))

end Sys2Proof.Machine
end

section
/-! PROOFS. The family of spec/30_encoding.md: `decode` takes back what `encode` gives (R140), each word of the four
maps matches its row (R118, R120, R121, R122), the selectors hold the fields of the state (R113, R114), and an enabled
event whose selector matches no row faults (R125, R127). -/

namespace Sys2Proof.Machine

/-! ### The words that `encode` gives -/

/-- R112: the word of an access holds its `data`. -/
@[simp] theorem hostData_hostWord (we : Bool) (idx : Idx) (data : Word) : hostData (hostWord we idx data) = data :=
  BitVec.extractLsb'_append_eq_right

/-- R118: the word of a read decodes to the read row of its index. -/
theorem decode_readWord (p : Params) (idx : Idx) : decode p (readWord idx) = some (decodeRead p idx) :=
  congrArg some (decodeHostOp_hostWord_read p idx 0#32)

/-- R118: the word of a write decodes to the write row of its index, with its data. -/
theorem decode_writeWord (p : Params) (idx : Idx) (data : Word) :
    decode p (writeWord idx data) = some (decodeWrite p idx data) := by
  rw [writeWord, decode, decodeHostOp_of_write (hostWe_hostWord ..), hostIdx_hostWord, hostData_hostWord]

/-- R116: the buffer index of a word index given by its two parts. -/
theorem bufIndex_append (hi : BitVec 2) (i : BitVec 4) : bufIndex (hi ++ i) = i :=
  BitVec.extractLsb'_append_eq_right

/-- R84: a WBUF byte that exists has a word index of WBUF. -/
theorem isWbufIdx_append {p : Params} {i : BitVec 4} (h : wbufMapped p i = true) : isWbufIdx p (1#2 ++ i) = true := by
  rw [isWbufIdx, BitVec.extractLsb'_append_eq_left, bufIndex_append, h]
  rfl

/-- R84: an RBUF byte that exists has a word index of RBUF. -/
theorem isRbufIdx_append {p : Params} {i : BitVec 4} (h : rbufMapped p i = true) : isRbufIdx p (2#2 ++ i) = true := by
  rw [isRbufIdx, BitVec.extractLsb'_append_eq_left, bufIndex_append, h]
  rfl

/-- R118: a read at a word index of WBUF is RD.WBUF. -/
theorem decodeRead_of_wbuf {p : Params} {idx : Idx} (h : isWbufIdx p idx = true) :
    decodeRead p idx = .rdWbuf (bufIndex idx) := by
  have hidx := (isWbufIdx_iff p idx).1 h
  rw [decodeRead_of_ge (by omega), if_pos h]

/-- R118: a read at a word index of RBUF is RD.RBUF. -/
theorem decodeRead_of_rbuf {p : Params} {idx : Idx} (h : isRbufIdx p idx = true) :
    decodeRead p idx = .rdRbuf (bufIndex idx) := by
  have hp := Params.bounds p
  have hidx := (isRbufIdx_iff p idx).1 h
  have hw : ¬isWbufIdx p idx = true := by rw [isWbufIdx_iff]; omega
  rw [decodeRead_of_ge (by omega), if_neg hw, if_pos h]

/-- R118: a write at a word index of WBUF is WR.WBUF. -/
theorem decodeWrite_of_wbuf {p : Params} {idx : Idx} (data : Word) (h : isWbufIdx p idx = true) :
    decodeWrite p idx data = .wrWbuf (bufIndex idx) data := by
  have hidx := (isWbufIdx_iff p idx).1 h
  rw [decodeWrite_of_not_register data (by omega), if_pos h]

/-- R304: the data of each reserved command's word. -/
theorem decodeCmd_reserved (op : BitVec 2) : decodeCmd (0#29 ++ 1#1 ++ op) = .cmdReserved op := by
  revert op; decide

/-- Settles O1: the selectors and EV codes are words of their rows; an access word holds its fields, and the register
map takes a well-formed index back to its row. -/
theorem encodeThenDecode : Obligations.EncodeThenDecode := by
  intro p i hwf
  cases i
  case cmdReserved op => rw [encode, decode_writeWord, ← decodeCmd_reserved op]; rfl
  case rdWbuf i => rw [encode, decode_readWord, decodeRead_of_wbuf (isWbufIdx_append hwf), bufIndex_append]
  case rdRbuf i => rw [encode, decode_readWord, decodeRead_of_rbuf (isRbufIdx_append hwf), bufIndex_append]
  case rdUnmapped idx => rw [encode, decode_readWord, decodeRead_of_unmapped hwf]
  case wrWbuf i data => rw [encode, decode_writeWord, decodeWrite_of_wbuf data (isWbufIdx_append hwf), bufIndex_append]
  case wrRo idx => rw [encode, decode_writeWord, decodeWrite_of_readOnly _ hwf]
  case wrUnmapped idx => rw [encode, decode_writeWord, decodeWrite_of_unmapped _ hwf]
  case wrTxnAddr | wrTxnWcnt | wrTxnRcnt | wrTxnFlags => exact decode_writeWord ..
  -- an operation without an operand has one fixed word
  all_goals rfl

/-! ### Tables of (match, mask) rows -/

/-- Two rows (match, mask) that no word matches both: they ask for different values of a bit that both look at. -/
abbrev Apart {n : Nat} (r r' : BitVec n × BitVec n) : Prop := r.1 &&& r'.2 ≠ r'.1 &&& r.2

/-- A word that matches one of two rows apart does not match the other. -/
theorem Apart.not_both {n : Nat} {r r' : BitVec n × BitVec n} (h : Apart r r') {w : BitVec n}
    (hr : w &&& r.2 = r.1) : w &&& r'.2 ≠ r'.1 := by
  intro hr'
  apply h
  rw [← hr, ← hr', BitVec.and_assoc, BitVec.and_assoc, BitVec.and_comm r.2]

/-- In a table of rows apart at most one row matches a word. -/
theorem countP_le_one_of_apart {n : Nat} {rows : List (BitVec n × BitVec n)} (h : rows.Pairwise Apart) (w : BitVec n) :
    rows.countP (fun r => w &&& r.2 == r.1) ≤ 1 := by
  induction h with
  | nil => simp
  | @cons r rows hr _ ih =>
    by_cases hw : w &&& r.2 = r.1
    · have hrest : rows.countP (fun r => w &&& r.2 == r.1) = 0 :=
        List.countP_eq_zero.2 fun r' hr' => by simpa using (hr r' hr').not_both hw
      simp [hw, hrest]
    · simpa [hw] using ih

/-! ### The fields of a word under a mask -/

/-- R112: a word is made of its three fields. -/
theorem hostWord_fields (w : BitVec 39) : hostWord (hostWe w) (hostIdx w) (hostData w) = w := by
  refine BitVec.eq_of_getLsbD_eq fun i hi => ?_
  rw [hostWord, BitVec.getLsbD_append, BitVec.getLsbD_append, hostWe, hostIdx, hostData]
  obtain hlow | ⟨hge, hmid⟩ | rfl : i < 32 ∨ (32 ≤ i ∧ i < 38) ∨ i = 38 := by omega
  · simp [hlow]
  · have hidx : i - 32 < 6 := by omega
    simp [hge, hge.not_gt, hidx]
  · simp

/-- R112: what a mask that looks at `we` and all of `idx` leaves of a word. -/
theorem and_hostWord (w : BitVec 39) (m : Word) :
    w &&& hostWord true (BitVec.allOnes 6) m = hostWord (hostWe w) (hostIdx w) (hostData w &&& m) := by
  have hwe : BitVec.ofBool (hostWe w) &&& BitVec.ofBool true = BitVec.ofBool (hostWe w) := by cases hostWe w <;> rfl
  conv_lhs =>
    rw [← hostWord_fields w, hostWord, hostWord, BitVec.and_append, BitVec.and_append, BitVec.and_allOnes, hwe]
  rfl

/-- R291: the bits `data[2:0]`. -/
theorem and_seven (data : Word) : data &&& 7#32 = 0#29 ++ data.extractLsb' 0 3 := by
  have hseven : 7#32 = 0#29 ++ BitVec.allOnes 3 := by decide
  conv_lhs =>
    rw [← BitVec.extractLsb'_append_extractLsb' (w := 29) (len := 3) (x := data), hseven, BitVec.and_append,
      BitVec.and_zero, BitVec.and_allOnes]

/-- R112: masking a word masks each of its fields. -/
theorem hostFields_and {w m v : BitVec 39} (h : w &&& m = v) :
    (hostWe w && hostWe m) = hostWe v ∧ hostIdx w &&& hostIdx m = hostIdx v ∧
      hostData w &&& hostData m = hostData v := by
  subst h
  exact ⟨BitVec.getLsbD_and.symm, BitVec.extractLsb'_and.symm, BitVec.extractLsb'_and.symm⟩

/-- R112, R116: the buffer index is the low part of the word index. -/
theorem bufIndex_hostIdx (w : BitVec 39) : bufIndex (hostIdx w) = bufOf w := by
  refine BitVec.eq_of_getLsbD_eq fun i hi => ?_
  have hidx : i < 6 := by omega
  simp [bufIndex, hostIdx, bufOf, hi, hidx]

/-- R304: the low bits of a word's data are its own. -/
theorem hostData_low (w : BitVec 39) : (hostData w).extractLsb' 0 2 = w.extractLsb' 0 2 :=
  BitVec.extractLsb'_extractLsb'_of_le (by decide)

/-- R291: a command is read from `data[2:0]`. -/
theorem decodeCmd_and (data : Word) : decodeCmd (data &&& 7#32) = decodeCmd data := by
  have h3 : BitVec.extractLsb' 0 3 7#32 = BitVec.allOnes 3 := by decide
  have h2 : BitVec.extractLsb' 0 2 7#32 = BitVec.allOnes 2 := by decide
  simp only [decodeCmd, BitVec.extractLsb'_and, h3, h2, BitVec.and_allOnes]

/-- R304: with `data[2]` set the command is reserved. -/
theorem decodeCmd_of_bit2 {data : Word} (h : data &&& 4#32 = 4#32) :
    decodeCmd data = .cmdReserved (data.extractLsb' 0 2) := by
  have hlow : 4 ≤ (data.extractLsb' 0 3).toNat := by
    have hand : data.extractLsb' 0 3 &&& 4#3 = 4#3 := by
      have := congrArg (BitVec.extractLsb' 0 3) h
      rwa [BitVec.extractLsb'_and] at this
    revert hand
    generalize data.extractLsb' 0 3 = d
    revert d; decide
  unfold decodeCmd
  split
  case h_5 => rfl
  all_goals omega

/-! ### The blocks of the register map -/

/-- R84: the word indices that the two high bits put in block `k` of sixteen. -/
theorem toNat_of_block {idx : Idx} {k : BitVec 2} (h : idx &&& 0x30#6 = k ++ 0#4) :
    idx.toNat = 16 * k.toNat + (bufIndex idx).toNat := by
  revert idx k; decide

/-- R84: the unmapped word indices, as arithmetic. -/
theorem unmappedIdx_iff_toNat (p : Params) (idx : Idx) : unmappedIdx p idx = true ↔
    12 ≤ idx.toNat ∧ ¬(16 ≤ idx.toNat ∧ idx.toNat < 16 + p.wmax) ∧ ¬(32 ≤ idx.toNat ∧ idx.toNat < 32 + p.rmax) := by
  rw [unmappedIdx_iff, isWbufIdx_iff, isRbufIdx_iff]

/-- R118: the word indices 12..15 and 48..63 are unmapped whatever the buffers' sizes. -/
theorem unmappedIdx_of_masked {p : Params} {idx : Idx} (h : idx &&& 0x3C#6 = 0x0C#6 ∨ idx &&& 0x30#6 = 0x30#6) :
    unmappedIdx p idx = true := by
  have hp := Params.bounds p
  have hn : (12 ≤ idx.toNat ∧ idx.toNat ≤ 15) ∨ 48 ≤ idx.toNat := by revert idx; decide
  rw [unmappedIdx_iff_toNat]
  omega

/-- R330: the word indices 1 and 6..11 are read-only registers whatever the buffers' sizes. -/
theorem readOnlyIdx_of_masked {p : Params} {idx : Idx}
    (h : idx &&& 0x3F#6 = 0x01#6 ∨ idx &&& 0x3E#6 = 0x06#6 ∨ idx &&& 0x3C#6 = 0x08#6) : readOnlyIdx p idx = true := by
  have hn : idx.toNat = 1 ∨ 6 ≤ idx.toNat ∧ idx.toNat ≤ 11 := by revert idx; decide
  exact (readOnlyIdx_iff p idx).2 (hn.imp_right .inl)

section Blocks
variable {p : Params} {idx : Idx}

/-- R118: the read rows of the block of WBUF. -/
theorem decodeRead_of_wbufBlock (h : idx &&& 0x30#6 = 0x10#6) :
    decodeRead p idx = if (bufIndex idx).toNat < p.wmax then .rdWbuf (bufIndex idx) else .rdUnmapped idx := by
  have hidx : idx.toNat = 16 + (bufIndex idx).toNat := toNat_of_block (k := 1#2) h
  split
  · exact decodeRead_of_wbuf ((isWbufIdx_iff p idx).2 (by omega))
  · exact decodeRead_of_unmapped ((unmappedIdx_iff_toNat p idx).2 (by omega))

/-- R118: the read rows of the block of RBUF. -/
theorem decodeRead_of_rbufBlock (h : idx &&& 0x30#6 = 0x20#6) :
    decodeRead p idx = if (bufIndex idx).toNat < p.rmax then .rdRbuf (bufIndex idx) else .rdUnmapped idx := by
  have hp := Params.bounds p
  have hidx : idx.toNat = 32 + (bufIndex idx).toNat := toNat_of_block (k := 2#2) h
  split
  · exact decodeRead_of_rbuf ((isRbufIdx_iff p idx).2 (by omega))
  · exact decodeRead_of_unmapped ((unmappedIdx_iff_toNat p idx).2 (by omega))

/-- R118: the write rows of the block of WBUF. -/
theorem decodeWrite_of_wbufBlock (data : Word) (h : idx &&& 0x30#6 = 0x10#6) :
    decodeWrite p idx data =
      if (bufIndex idx).toNat < p.wmax then .wrWbuf (bufIndex idx) data else .wrUnmapped idx := by
  have hidx : idx.toNat = 16 + (bufIndex idx).toNat := toNat_of_block (k := 1#2) h
  split
  · exact decodeWrite_of_wbuf data ((isWbufIdx_iff p idx).2 (by omega))
  · exact decodeWrite_of_unmapped data ((unmappedIdx_iff_toNat p idx).2 (by omega))

/-- R118, R330: the write rows of the block of RBUF, whose bytes are read-only. -/
theorem decodeWrite_of_rbufBlock (data : Word) (h : idx &&& 0x30#6 = 0x20#6) :
    decodeWrite p idx data = if (bufIndex idx).toNat < p.rmax then .wrRo idx else .wrUnmapped idx := by
  have hp := Params.bounds p
  have hidx : idx.toNat = 32 + (bufIndex idx).toNat := toNat_of_block (k := 2#2) h
  split
  · have hrbuf := (isRbufIdx_iff p idx).2 (by omega)
    exact decodeWrite_of_readOnly data ((readOnlyIdx_iff p idx).2 (.inr (.inr hrbuf)))
  · exact decodeWrite_of_unmapped data ((unmappedIdx_iff_toNat p idx).2 (by omega))

end Blocks

/-! ### The HOSTOP map -/

section HostRows
variable {p : Params} {w m v : BitVec 39}

/-- R118: a word that matches a row which looks at `we` is a read or a write as the row's match is. -/
theorem decodeHostOp_of_row (hm : hostWe m = true) (h : w &&& m = v) :
    decodeHostOp p w = if hostWe v then decodeWrite p (hostIdx w) (hostData w) else decodeRead p (hostIdx w) := by
  obtain ⟨hwe, -, -⟩ := hostFields_and h
  rw [hm, Bool.and_true] at hwe
  rw [decodeHostOp, hwe]

/-- R118: a word that matches a row which looks at all of `idx` has the word index of the row's match. -/
theorem decodeHostOp_of_indexRow (hm : hostWe m = true) (hall : hostIdx m = BitVec.allOnes 6) (h : w &&& m = v) :
    decodeHostOp p w = if hostWe v then decodeWrite p (hostIdx v) (hostData w) else decodeRead p (hostIdx v) := by
  obtain ⟨-, hidx, -⟩ := hostFields_and h
  rw [hall, BitVec.and_allOnes] at hidx
  rw [decodeHostOp_of_row hm h, hidx]

/-- R291: a word that matches a row of CMD whose mask looks at `data[2:0]` is the command of the row's match. -/
theorem decodeHostOp_of_cmdRow (hv : hostWe v = true) (hidx : hostIdx v = 0#6) (h : w &&& 0x7F00000007#39 = v) :
    decodeHostOp p w = decodeCmd (hostData v) := by
  obtain ⟨-, -, hdata⟩ := hostFields_and h
  calc decodeHostOp p w = decodeCmd (hostData w) := by
        rw [decodeHostOp_of_indexRow rfl rfl h, hv, hidx]; rfl
    _ = decodeCmd (hostData w &&& 7#32) := (decodeCmd_and _).symm
    _ = decodeCmd (hostData v) := congrArg decodeCmd hdata

end HostRows

/-- R118: a word that matches a row of the map decodes to that row's operation. -/
theorem decodeHostOp_of_hostRow {p : Params} : ∀ r ∈ hostRows p, ∀ w : BitVec 39, w &&& r.mask = r.pattern →
    decodeHostOp p w = r.instr w := by
  simp only [hostRows, List.cons_append, List.nil_append, List.forall_mem_cons, ← bufIndex_hostIdx]
  refine ⟨?nop, ?engBegin, ?seqInit, ?requestRead, ?reserved, ?_, ?_, ?_, ?_, ?_, ?_, ?_, ?_, ?_, ?_, ?_, ?_,
    ?rdWbuf, ?rdRbuf, ?rdLow, ?rdHigh, ?_, ?_, ?_, ?_, ?wrWbuf, ?ro1, ?ro6, ?ro8, ?wrRbuf, ?wrLow, ?wrHigh, nofun⟩
  case nop | engBegin | seqInit | requestRead => exact fun w h => (decodeHostOp_of_cmdRow rfl rfl h).trans rfl
  all_goals
    intro w h
    obtain ⟨-, hidx, hdata⟩ := hostFields_and h
  case reserved =>
    rw [decodeHostOp_of_indexRow rfl rfl h, ← hostData_low]
    exact decodeCmd_of_bit2 hdata
  case rdWbuf => exact (decodeHostOp_of_row rfl h).trans (decodeRead_of_wbufBlock hidx)
  case rdRbuf => exact (decodeHostOp_of_row rfl h).trans (decodeRead_of_rbufBlock hidx)
  case rdLow => exact (decodeHostOp_of_row rfl h).trans (decodeRead_of_unmapped (unmappedIdx_of_masked (.inl hidx)))
  case rdHigh => exact (decodeHostOp_of_row rfl h).trans (decodeRead_of_unmapped (unmappedIdx_of_masked (.inr hidx)))
  case wrWbuf => exact (decodeHostOp_of_row rfl h).trans (decodeWrite_of_wbufBlock _ hidx)
  case ro1 => exact (decodeHostOp_of_row rfl h).trans (decodeWrite_of_readOnly _ (readOnlyIdx_of_masked (.inl hidx)))
  case ro6 =>
    exact (decodeHostOp_of_row rfl h).trans (decodeWrite_of_readOnly _ (readOnlyIdx_of_masked (.inr (.inl hidx))))
  case ro8 =>
    exact (decodeHostOp_of_row rfl h).trans (decodeWrite_of_readOnly _ (readOnlyIdx_of_masked (.inr (.inr hidx))))
  case wrRbuf => exact (decodeHostOp_of_row rfl h).trans (decodeWrite_of_rbufBlock _ hidx)
  case wrLow => exact (decodeHostOp_of_row rfl h).trans (decodeWrite_of_unmapped _ (unmappedIdx_of_masked (.inl hidx)))
  case wrHigh => exact (decodeHostOp_of_row rfl h).trans (decodeWrite_of_unmapped _ (unmappedIdx_of_masked (.inr hidx)))
  -- the rows of a single register
  all_goals exact (decodeHostOp_of_indexRow rfl rfl h).trans rfl

/-- R118: the matches and masks of the map, which are the same for all parameters. -/
def hostKeys : List (BitVec 39 × BitVec 39) := (hostRows Params.reference).map fun r => (r.pattern, r.mask)

/-- R118: no parameter moves a row of the map. -/
theorem hostRows_keys (p : Params) : (hostRows p).map (fun r => (r.pattern, r.mask)) = hostKeys := rfl

/-- R118: no word matches two rows of the map. -/
theorem hostKeys_apart : hostKeys.Pairwise Apart := by decide

/-- R118: every access but a command matches a row that does not look at the data. -/
theorem hostKeys_cover_register : ∀ (we : Bool) (idx : Idx), (we = true ∧ idx = 0#6) ∨
    ∃ k ∈ hostKeys, hostWord we idx 0#32 &&& k.2 = k.1 ∧ 0x7F00000000#39 &&& k.2 = k.2 := by decide

/-- R118, R291: every command matches a row that looks at no data past `data[2:0]`. -/
theorem hostKeys_cover_command : ∀ d : BitVec 3,
    ∃ k ∈ hostKeys, hostWord true 0#6 (0#29 ++ d) &&& k.2 = k.1 ∧ 0x7F00000007#39 &&& k.2 = k.2 := by decide

/-- A row that looks only at bits of `m` sees in `w` what it sees in `w &&& m`. -/
theorem matches_of_masked {n : Nat} {w m u : BitVec n} {k : BitVec n × BitVec n} (hw : w &&& m = u)
    (hk : u &&& k.2 = k.1) (hm : m &&& k.2 = k.2) : w &&& k.2 = k.1 := by
  rw [← hk, ← hw, BitVec.and_assoc, hm]

/-- R118: every word matches a row of the map. -/
theorem hostKeys_cover (w : BitVec 39) : ∃ k ∈ hostKeys, w &&& k.2 = k.1 := by
  rcases hostKeys_cover_register (hostWe w) (hostIdx w) with ⟨hwe, hidx⟩ | ⟨k, hk, hmatch, hm⟩
  · obtain ⟨k, hk, hmatch, hm⟩ := hostKeys_cover_command ((hostData w).extractLsb' 0 3)
    refine ⟨k, hk, matches_of_masked ?_ hmatch hm⟩
    rw [← hwe, ← hidx, ← and_seven]
    exact and_hostWord w 7#32
  · refine ⟨k, hk, matches_of_masked ?_ hmatch hm⟩
    rw [← BitVec.and_zero (x := hostData w)]
    exact and_hostWord w 0#32

/-- Settles O2: every word matches a row, no word matches two, and the decoder gives the operation of the row. -/
theorem hostWordMatchesOneRow : Obligations.HostWordMatchesOneRow := by
  intro p w
  obtain ⟨k, hk, hw⟩ := hostKeys_cover w
  rw [← hostRows_keys p, List.mem_map] at hk
  obtain ⟨r, hr, rfl⟩ := hk
  refine ⟨⟨r, hr, hw, decodeHostOp_of_hostRow r hr w hw⟩, le_antisymm ?_ ?_⟩
  · have h := countP_le_one_of_apart hostKeys_apart w
    rwa [← hostRows_keys p, List.countP_map] at h
  · exact List.countP_pos_iff.2 ⟨r, hr, by simpa using hw⟩

/-! ### The UOP, SEQOP and EV maps -/

/-- R120: the decoder tests the rows of the map in order. -/
theorem decodeUop_eq_find? (w : BitVec 10) :
    decodeUop w = (uopRows.find? fun r => w &&& r.2.2 == r.2.1).map Prod.fst := by
  have hcons (r : Instr × BitVec 10 × BitVec 10) (rows : List (Instr × BitVec 10 × BitVec 10)) :
      ((r :: rows).find? fun r => w &&& r.2.2 == r.2.1).map Prod.fst =
        if w &&& r.2.2 = r.2.1 then some r.1 else (rows.find? fun r => w &&& r.2.2 == r.2.1).map Prod.fst := by
    by_cases h : w &&& r.2.2 = r.2.1 <;> simp [h]
  simp only [uopRows, hcons]
  rfl

/-- R120: no selector matches two rows. -/
theorem uopRows_apart : (uopRows.map Prod.snd).Pairwise Apart := by decide

/-- R120: two rows are of two micro-operations, and no selector matches both. -/
theorem uopRows_distinct : ∀ r ∈ uopRows, ∀ r' ∈ uopRows, r' = r ∨ (r'.1 ≠ r.1 ∧ Apart r'.2 r.2) := by decide

/-- R120: a selector that decodes matches the row of its micro-operation. -/
theorem decodeUop_eq_some_iff (w : BitVec 10) (i : Instr) :
    decodeUop w = some i ↔ ∃ r ∈ uopRows, w &&& r.2.2 = r.2.1 ∧ r.1 = i := by
  rw [decodeUop_eq_find?, Option.map_eq_some_iff]
  constructor
  · rintro ⟨r, hr, hi⟩
    exact ⟨r, List.mem_of_find?_eq_some hr, by simpa using List.find?_some hr, hi⟩
  · rintro ⟨r, hmem, hw, rfl⟩
    cases hfind : uopRows.find? fun r => w &&& r.2.2 == r.2.1 with
    | none => exact absurd (by simpa using hw) (List.find?_eq_none.1 hfind r hmem)
    | some r' =>
      have hw' : w &&& r'.2.2 = r'.2.1 := by simpa using List.find?_some hfind
      refine ⟨r', rfl, ?_⟩
      rcases uopRows_distinct r hmem r' (List.mem_of_find?_eq_some hfind) with rfl | ⟨-, hapart⟩
      · rfl
      · exact absurd hw (hapart.not_both hw')

/-- Settles O3: the decoder is the search for a row, and the rows are apart. -/
theorem uopSelectorMatchesItsRow : Obligations.UopSelectorMatchesItsRow := by
  refine fun w => ⟨fun r hr => ?_, ?_, ?_⟩
  · rw [decodeUop_eq_some_iff]
    refine ⟨fun hw => ⟨r, hr, hw, rfl⟩, ?_⟩
    rintro ⟨r', hr', hw', hi⟩
    rcases uopRows_distinct r hr r' hr' with rfl | ⟨hne, -⟩
    · exact hw'
    · exact absurd hi hne
  · have hone := countP_le_one_of_apart uopRows_apart w
    rwa [List.countP_map] at hone
  · rw [decodeUop_eq_find?, Option.map_eq_none_iff, List.find?_eq_none]
    simp only [beq_iff_eq, ne_eq]

/-- Settles O4: on each of the 32 selectors the decoder gives what the row asks for. -/
theorem dispatchSelectorMatchesItsRow : Obligations.DispatchSelectorMatchesItsRow := by
  unfold Obligations.DispatchSelectorMatchesItsRow
  decide

/-- R128: the codes above 4 name no event. -/
theorem decodeEv_of_ge {w : BitVec 3} (h : 5 ≤ w.toNat) : decodeEv w = none := by
  revert w; decide

/-- Settles O5: a next state is taken only through an event that the code names. -/
theorem eventCodesNameTheirAgents : Obligations.EventCodesNameTheirAgents := by
  refine ⟨rfl, rfl, rfl, rfl, rfl, fun w hw => ⟨decodeEv_of_ge hw, fun s t hs h => ?_⟩⟩
  obtain ⟨-, i, -, hi, -⟩ := step_next h
  rw [hs, decodeEv_of_ge hw] at hi
  cases hi

/-! ### The selectors of a state -/

/-- R113: the fields of a UOP selector. -/
theorem selector_fields (e : Engine) (w : Bool) :
    (e.selector w).getLsbD 9 = w ∧ (e.selector w).extractLsb' 6 3 = e.phase.code ∧ (e.selector w).getLsbD 5 = e.rs ∧
      (e.selector w).extractLsb' 1 4 = e.bit ∧ (e.selector w).getLsbD 0 = e.half := by
  refine ⟨?_, ?phase, ?_, ?bit, ?_⟩
  case phase | bit =>
    simp (disch := decide) only [Engine.selector, BitVec.extractLsb'_append_eq_of_le, Nat.reduceSub,
      BitVec.extractLsb'_append_eq_right]
  all_goals
    rw [Engine.selector]
    simp only [BitVec.getLsbD_append]
    simp

/-- R160: only bit 9 of a selector is `w`. -/
theorem selector_low (e : Engine) (w v : Bool) :
    (e.selector w).extractLsb' 0 9 = (e.selector v).extractLsb' 0 9 := by
  refine BitVec.eq_of_getLsbD_eq fun i hi => ?_
  have hphase : i - 1 - 4 - 1 < 3 := by omega
  simp only [Engine.selector, BitVec.getLsbD_extractLsb', BitVec.getLsbD_append]
  simp [hphase]

/-- R114: the fields of a SEQOP selector. -/
theorem seqop_fields (s : State) : s.seqop.extractLsb' 1 4 = s.seq.state.code ∧ s.seqop.getLsbD 0 = s.seq.cplOk := by
  constructor
  · exact BitVec.extractLsb'_append_eq_left
  · rw [State.seqop, BitVec.getLsbD_append]
    simp

/-- Settles O6: a selector is its fields beside each other, so each slice gives one field back. -/
theorem selectorsAreReadFromState : Obligations.SelectorsAreReadFromState := by
  intro s
  obtain ⟨hwait, hrest⟩ := selector_fields s.eng s.eng.wait
  refine ⟨⟨hwait, hrest⟩, ⟨(selector_fields s.eng false).1, selector_low ..⟩, fun hw => hwait.trans hw, seqop_fields s⟩

/-- Settles O7: the decoder evaluated on each written word. -/
theorem writtenWordsDecode : Obligations.WrittenWordsDecode :=
  ⟨rfl, rfl, rfl, rfl, rfl, rfl, rfl, rfl, rfl, rfl, rfl, rfl, rfl, rfl⟩

/-- Settles O14: an enabled event whose selector decodes to nothing has nothing to perform. -/
theorem unmatchedSelectorsFault : Obligations.UnmatchedSelectorsFault := by
  refine fun s => ⟨fun ha hsel => ?_, fun hw hsel => ?_, fun hp hsel => ?_⟩
  · simp [exec, execEvTick, ha, hsel]
  · simp [exec, execEvPoll, hw, hsel]
  · simp [exec, execEvDispatch, hp, hsel]

end Sys2Proof.Machine
end

section
/-! PROOFS. The family of spec/30_encoding.md: from a state that meets the invariants no step faults (R125, R127,
R341). -/

namespace Sys2Proof.Machine

/-! ### What an invariant state selects can be done -/

/-- R168: the ACK slot ends where every byte that it may have to send lies inside `e_wdata`. -/
theorem Engine.afterAck_some {e : Engine} {t : Txn} (hfirst : e.phase = .addr → e.dir = false → 0 < t.wdata.length)
    (hnext : e.byte.toNat + 1 < t.wcnt.toNat → e.byte.toNat + 1 < t.wdata.length) :
    ∃ e', e.afterAck t = some e' := by
  unfold Engine.afterAck
  dsimp only
  split
  · exact ⟨_, rfl⟩
  split
  · next haddr =>
    split
    · exact ⟨_, rfl⟩
    · next hdir => exact ⟨_, by rw [List.getElem?_eq_getElem (hfirst haddr (by simpa using hdir))]; rfl⟩
  split
  · next hlt => exact ⟨_, by rw [List.getElem?_eq_getElem (hnext hlt)]; rfl⟩
  split <;> exact ⟨_, rfl⟩

/-- R168: the walk keeps the bytes to send inside `e_wdata`. -/
theorem WalkInv.afterAck_some {s : State} (h : WalkInv s) : ∃ e, s.disarm.eng.afterAck s.latch = some e := by
  have hlen : s.latch.wcnt.toNat ≤ s.latch.wdata.length := h.wdata_len ▸ h.wcnt_le
  exact Engine.afterAck_some
    (fun haddr hdir => (toNat_pos_of_ne_zero (h.write_nonempty (.inr haddr) hdir)).trans_le hlen)
    (fun hlt => hlt.trans_le hlen)

/-- R125: with the invariants an armed engine is in a state of the UOP table. -/
theorem Inv.tickSel_selects {s : State} (hi : Inv s) (ha : s.eng.armed = true) : ∃ i, decodeUop s.tickSel = some i := by
  rw [State.tickSel, decodeUop_selector, ← Option.isSome_iff_exists]
  have hbusy := hi.engine.busy_of_armed ha
  have hbit := hi.engine.bit_le
  cases hph : s.eng.phase with
  | start => cases s.eng.rs <;> rfl
  | addr | write | read => exact rowOf_isSome (by simp) hbit
  | stop => cases s.eng.half <;> rfl
  | idle | done | failed => simp [Engine.busy, hph, Phase.busy] at hbusy

/-- R160: an armed engine's TICK performs the selected micro-operation. -/
theorem execEvTick_of_selected {s : State} {i : Instr} (ha : s.eng.armed = true) (hsel : decodeUop s.tickSel = some i) :
    execEvTick s = performUop i s.disarm := by
  simp [execEvTick, ha, hsel]

/-- R161: a waiting engine's POLL performs the selected micro-operation. -/
theorem execEvPoll_of_selected {s : State} {i : Instr} (hw : s.eng.wait = true) (hsel : decodeUop s.uop = some i) :
    execEvPoll s = performUop i s := by
  simp [execEvPoll, hw, hsel]

/-- R240: the DISPATCH of a pending completion performs the selected dispatch operation. -/
theorem execEvDispatch_of_selected {s : State} {i : Instr} (hp : s.seq.cplPend = true)
    (hsel : decodeSeqOp s.seqop = some i) : execEvDispatch s = performSeqOp i s.consumeCompletion := by
  simp [execEvDispatch, hp, hsel]

/-- R168: with the invariants a selected U.TX.ACK.H1 finds its byte in `e_wdata`. -/
theorem Inv.execUTxAckH1_next {s : State} (hi : Inv s) (hsel : decodeUop s.tickSel = some .uTxAckH1) :
    ∃ t, execUTxAckH1 s.disarm = .next t := by
  obtain ⟨e, he⟩ := hi.walk.afterAck_some
  simp only [execUTxAckH1, microOp_next]
  exact ⟨_, hsel, congrArg (Option.map _) he⟩

/-- R171: with the invariants a selected U.RX.BIT.H1 stores inside `rbuf`. -/
theorem Inv.execURxBitH1_next {s : State} (hi : Inv s) (hsel : decodeUop s.tickSel = some .uRxBitH1) :
    ∃ t, execURxBitH1 s.disarm = .next t := by
  obtain ⟨hph, -, -⟩ := (selects_uRxBitH1 s.eng).1 hsel
  have hindex : s.eng.byte.toNat < s.cfg.rmax := (hi.walk.read_byte hph).trans_le hi.walk.rcnt_le
  simp only [execURxBitH1, microOp_next]
  by_cases hlast : s.eng.bit + 1#4 = 8#4
  · exact ⟨_, hsel, (if_pos hlast).trans (if_pos hindex)⟩
  · exact ⟨_, hsel, if_neg hlast⟩

/-- R160: with the invariants a TICK answers a next state: the work of every other selected micro-operation is total. -/
theorem Inv.execEvTick_next {s : State} (hi : Inv s) (ha : s.eng.armed = true) : ∃ t, execEvTick s = .next t := by
  obtain ⟨i, hsel⟩ := hi.tickSel_selects ha
  rw [execEvTick_of_selected ha hsel]
  rcases decodeUop_cases hsel with rfl | rfl | rfl | rfl | rfl | rfl | rfl | rfl | rfl | rfl | rfl | rfl | rfl | rfl
  case inr.inr.inr.inr.inr.inl => exact absurd ((selects_uTxAckPoll _ _).1 hsel).1 nofun
  case inr.inr.inr.inr.inr.inr.inr.inr.inl => exact absurd ((selects_uRxBitPoll _ _).1 hsel).1 nofun
  case inr.inr.inr.inr.inr.inr.inl => exact hi.execUTxAckH1_next hsel
  case inr.inr.inr.inr.inr.inr.inr.inr.inr.inl => exact hi.execURxBitH1_next hsel
  all_goals exact ⟨_, microOp_selected hsel rfl⟩

/-- R161: with the invariants a POLL answers a next state. -/
theorem Inv.execEvPoll_next {s : State} (hi : Inv s) (hw : s.eng.wait = true) : ∃ t, execEvPoll s = .next t := by
  rcases hi.engine.wait_poll hw with hsel | hsel
  all_goals exact ⟨_, (execEvPoll_of_selected hw hsel).trans (microOp_selected hsel rfl)⟩

/-- R121: a selector with an active state matches a row. -/
theorem decodeSeqOp_of_active {st : SeqState} (ok : Bool) (h : st.active = true) :
    ∃ i, decodeSeqOp (st.code ++ BitVec.ofBool ok) = some i := by
  rw [decodeSeqOp_code, if_pos h]
  cases st with
  | off | idle | error => cases h
  | _ => cases ok <;> exact ⟨_, rfl⟩

/-- R242 to R247: while the engine is not busy, the selected dispatch operation answers a next state. -/
theorem performSeqOp_next {i : Instr} {s : State} (hsel : decodeSeqOp s.seqop = some i) (hbusy : s.eng.busy = false) :
    ∃ t, performSeqOp i s = .next t := by
  have hissue (k : Issuing) : issueStep k s = .next (s.enter k) := issueStep_next.2 ⟨hbusy, rfl⟩
  rcases decodeSeqOp_cases hsel with rfl | rfl | rfl | rfl | rfl | rfl | rfl
  all_goals
    simp only [performSeqOp, execSFail, execSResetOk, execSCalOk, execSPollcalOk, execSTrigOk, execSPollmeasOk,
      execSReadOk, seqOp, hsel, if_true, hissue]
    repeat' split
  all_goals exact ⟨_, rfl⟩

/-- R127, R240: with the invariants a DISPATCH answers a next state. -/
theorem Inv.execEvDispatch_next {s : State} (hi : Inv s) (hp : s.seq.cplPend = true) :
    ∃ t, execEvDispatch s = .next t := by
  have hact : s.seq.state.active = true := by
    by_contra hact
    obtain ⟨hpend, -⟩ := hi.seq.inactive_none (by simpa using hact)
    rw [hpend] at hp
    cases hp
  obtain ⟨i, hsel⟩ := decodeSeqOp_of_active s.seq.cplOk hact
  rw [execEvDispatch_of_selected hp hsel]
  exact performSeqOp_next hsel (hi.seq.pend_idle hp)

/-! ### No step of an invariant state faults -/

/-- Settles O54: HOST and RESET always take a next state, and the invariants give one to TICK, POLL and DISPATCH
wherever they are enabled. -/
theorem invariantStatesNeverFault : Obligations.InvariantStatesNeverFault := by
  intro s hi
  have hres := hi.err.reservedHeld_eq_false
  cases hev : decodeEv s.pins.ev with
  | none => exact .inr (.inr (by simp [step, hres, hev]))
  | some i =>
    rw [step_of_decodeEv hres hev]
    have hnext : (∃ u, exec i s = .next u) → ∃ t, afterStep (exec i s) = .next t := by
      rintro ⟨u, hu⟩
      exact ⟨u.advance, by rw [hu]; rfl⟩
    rcases decodeEv_cases hev with rfl | rfl | rfl | rfl | rfl
    · exact .inl (hnext (performHostOp_decodeHostOp_next s.cfg s.pins.host s))
    · cases ha : s.eng.armed with
      | true => exact .inl (hnext (hi.execEvTick_next ha))
      | false => exact .inr (.inl ⟨_, by rw [exec_evTick_of_not_armed ha]; rfl⟩)
    · cases hw : s.eng.wait with
      | true => exact .inl (hnext (hi.execEvPoll_next hw))
      | false => exact .inr (.inl ⟨_, by rw [exec_evPoll_of_not_wait hw]; rfl⟩)
    · cases hp : s.seq.cplPend with
      | true => exact .inl (hnext (hi.execEvDispatch_next hp))
      | false => exact .inr (.inl ⟨_, by rw [exec_evDispatch_of_not_cplPend hp]; rfl⟩)
    · exact .inl (hnext ⟨_, rfl⟩)

end Sys2Proof.Machine
end

section
/-! PROOFS. The family of spec/40_engine.md: what EV.TICK and EV.POLL perform (R160, R161), and each micro-operation in
full, with what the line and walk invariants say of the state it runs in (R162 to R175). -/

namespace Sys2Proof.Machine

/-! ### The events that perform a micro-operation -/

/-- Settles O10: a TICK performs what its selector matches, and with the invariants that can be done. -/
theorem tickPerformsTheSelectedMicroOp : Obligations.TickPerformsTheSelectedMicroOp :=
  ⟨fun s _ ha hsel => (execEvTick_of_selected ha hsel).trans (performUop_eq_exec hsel s.disarm),
    fun _ => exec_evTick_of_not_armed, fun _ hi ha => hi.execEvTick_next ha⟩

/-- R161: a waiting engine's POLL is `exec` of the selected micro-operation. -/
theorem exec_evPoll_of_selected {s : State} {i : Instr} (hw : s.eng.wait = true) (hsel : decodeUop s.uop = some i) :
    exec .evPoll s = exec i s :=
  (execEvPoll_of_selected hw hsel).trans (performUop_eq_exec hsel s)

/-- Settles O11: a POLL performs what its selector matches, and with the invariants that is a poll, which can be done. -/
theorem pollPerformsTheSelectedMicroOp : Obligations.PollPerformsTheSelectedMicroOp := by
  refine ⟨fun s i => exec_evPoll_of_selected, fun s => exec_evPoll_of_not_wait, fun s hi hw => ?_⟩
  obtain ⟨t, ht⟩ := hi.execEvPoll_next hw
  exact ⟨t, ht, (hi.engine.wait_poll hw).imp (exec_evPoll_of_selected hw) (exec_evPoll_of_selected hw)⟩

/-! ### Rows and lines -/

/-- R120: a selector that matches a row decodes to the row's micro-operation, and no other selector does. -/
theorem selects_iff_matches (i : Instr) {w v m : BitVec 10} (hrow : (i, v, m) ∈ uopRows := by decide) :
    decodeUop w = some i ↔ w &&& m = v :=
  ((uopSelectorMatchesItsRow w).1 _ hrow).symm

/-- R152: SDA is set, then SCL. -/
theorem State.setData_setClock (s : State) (d c : Bool) : (s.setData d).setClock c =
    { s with lines := { scl := c, sda := d }, bus := s.bus ++ [.setSda d, .setScl c] } := by
  simp [setData, setClock, emit]

/-- R164, R166, R169, R174: SCL is low when the first half of a slot runs. -/
theorem LineInv.scl_low {s : State} (h : LineInv s)
    (hph : (s.eng.phase = .addr ∨ s.eng.phase = .write) ∨ s.eng.phase = .read ∨ s.eng.phase = .stop)
    (hhalf : s.eng.half = false) (hw : s.eng.wait = false) : s.lines.scl = false :=
  h.low_half (or_assoc.1 hph) hhalf hw

/-- R159: a completion sets the phase, and tells the sequencer of its own transaction only. -/
theorem State.complete_eq (s : State) (ok : Bool) : s.complete ok = { s with
    eng := { s.eng with phase := if ok then .done else .failed }
    seq := if s.eng.owner = .seq then { s.seq with cplPend := true, cplOk := ok } else s.seq } := by
  rw [← State.complete_seq]; rfl

/-! ### START and STOP -/

/-- Settles O17: both are one pair of line writes and one engine update. -/
theorem startMicroOps : Obligations.StartMicroOps := by
  refine fun s => ⟨fun hrow => ?_, fun hrow => ?_⟩
  · have hsel := (selects_iff_matches .uStartRs).2 hrow
    obtain ⟨hph, hrs⟩ := (selects_uStartRs s.eng).1 hsel
    exact ⟨(microOp_selected hsel rfl).trans (by rw [State.setData_setClock]; rfl), fun hl => hl.start_rs_low hph hrs⟩
  · have hsel := (selects_iff_matches .uStart).2 hrow
    obtain ⟨hph, hrs⟩ := (selects_uStart s.eng).1 hsel
    exact ⟨(microOp_selected hsel rfl).trans (by rw [State.startCondition, State.setData_setClock]; rfl),
      fun hl => hl.start_released hph hrs⟩

/-- Settles O25: the second half either starts the read phase or completes. -/
theorem stopMicroOps : Obligations.StopMicroOps := by
  refine fun s => ⟨fun hrow => ?_, fun hrow => ?_⟩
  · have hsel := (selects_iff_matches .uStopH0).2 hrow
    obtain ⟨hph, hhalf⟩ := (selects_uStopH0 s.eng).1 hsel
    exact ⟨(microOp_selected hsel rfl).trans (by rw [State.setData_setClock]; rfl),
      fun hl => hl.scl_low (.inr (.inr hph)) hhalf⟩
  · have hsel := (selects_iff_matches .uStopH1).2 hrow
    obtain ⟨hph, hhalf⟩ := (selects_uStopH1 s.eng).1 hsel
    refine ⟨microOp_selected hsel (congrArg some ?_),
      fun hl => ⟨hl.high_half (.inr (.inr (.inr hph))) hhalf, hl.stop_low hph hhalf⟩,
      fun hi ⟨hnext, hfail⟩ => ?_⟩
    · cases hnext : s.eng.next with
      | true => simp [State.arm, State.setData, State.emit]
      | false => cases s.eng.fail <;> simp [hnext, State.complete_eq, State.setData, State.emit]
    · obtain ⟨-, -, -, hfail'⟩ := hi.next_stop hnext
      rw [hfail'] at hfail
      cases hfail

/-! ### A transmitted byte -/

/-- Settles O18: the rows say which bit is sent and that `e_bit` is below 8. -/
theorem transmitBitMicroOps : Obligations.TransmitBitMicroOps := by
  refine fun s => ⟨fun hrow => ?_, fun hrow => ?_⟩
  · have hsel := (selects_iff_matches .uTxBitH0).2 hrow
    obtain ⟨hph, hbit, hhalf⟩ := (selects_uTxBitH0 s.eng).1 hsel
    exact ⟨(microOp_selected hsel rfl).trans (by rw [State.setData_setClock]; rfl), Nat.le_of_lt_succ hbit,
      fun hl => hl.scl_low (.inl hph) hhalf⟩
  · have hsel := (selects_iff_matches .uTxBitH1).2 hrow
    obtain ⟨-, hbit, -⟩ := (selects_uTxBitH1 s.eng).1 hsel
    exact ⟨microOp_selected hsel rfl, bit_succ_le hbit⟩

/-- Settles O19: the two micro-operations do the same in the first half of the ACK slot and of a bit slot of READ. -/
theorem releaseForTheSampleMicroOps : Obligations.ReleaseForTheSampleMicroOps := by
  refine fun s => ⟨fun hrow => ?_, fun hrow => ?_⟩
  · have hsel := (selects_iff_matches .uTxAckH0).2 hrow
    obtain ⟨hph, -, hhalf⟩ := (selects_uTxAckH0 s.eng).1 hsel
    exact ⟨(microOp_selected hsel rfl).trans (by rw [State.setData_setClock]),
      fun hl => hl.scl_low (.inl hph) hhalf⟩
  · have hsel := (selects_iff_matches .uRxBitH0).2 hrow
    obtain ⟨hph, -, hhalf⟩ := (selects_uRxBitH0 s.eng).1 hsel
    exact ⟨(microOp_selected hsel rfl).trans (by rw [State.setData_setClock]),
      fun hl => hl.scl_low (.inr (.inl hph)) hhalf⟩

/-- R168: the conditions of each case of `AfterAck` decide `Engine.afterAck`. -/
theorem AfterAck.afterAck_eq {e e' : Engine} {t : Txn} (h : AfterAck e t e') : e.afterAck t = some e' := by
  cases h with
  | nack hnack => simp [Engine.afterAck, hnack]
  | toRead hnack hph hdir => simp [Engine.afterAck, hnack, hph, hdir]
  | toWrite b hnack hph hdir hb => simp [Engine.afterAck, hnack, hph, hdir, hb]
  | nextByte b hnack hph hlt hb => simp [Engine.afterAck, hnack, hph, hlt, hb]
  | restart hnack hph hge hr hrs => simp [Engine.afterAck, hnack, hph, hge.not_gt, hr, hrs]
  | stopThenRead hnack hph hge hr hrs => simp [Engine.afterAck, hnack, hph, hge.not_gt, hr, hrs]
  | toStop hnack hph hge hr => simp [Engine.afterAck, hnack, hph, hge.not_gt, hr]

/-- R168: U.TX.ACK.H1 lowers SCL, moves the engine and arms. -/
theorem AfterAck.execUTxAckH1_eq {s : State} {e : Engine} (h : AfterAck s.eng s.latch e)
    (hsel : decodeUop s.tickSel = some .uTxAckH1) :
    execUTxAckH1 s = .next ({ s.setClock false with eng := e } : State).arm :=
  microOp_selected hsel (by rw [h.afterAck_eq]; rfl)

/-- R168: the first byte of a write phase lies in `e_wdata`. -/
theorem WalkInv.first_in_wdata {s : State} (hi : WalkInv s) (hph : s.eng.phase = .addr) (hdir : s.eng.dir = false) :
    0 < s.latch.wdata.length :=
  (toNat_pos_of_ne_zero (hi.write_nonempty (.inr hph) hdir)).trans_le (hi.wdata_len ▸ hi.wcnt_le)

/-- R168: a byte below `e_wcnt` lies in `e_wdata`. -/
theorem WalkInv.index_in_wdata {s : State} (hi : WalkInv s) {n : Nat} (hlt : n < s.latch.wcnt.toNat) :
    n < s.latch.wdata.length :=
  hlt.trans_le (hi.wdata_len ▸ hi.wcnt_le)

/-- R168: the index of the next byte, written to the 8 bits of `e_byte`. -/
theorem ofNat_toNat_succ (b : Byte) : BitVec.ofNat 8 (b.toNat + 1) = b + 1#8 := by
  simp [BitVec.ofNat_add]

/-- Settles O21: the walk finds the byte to send, so the engine does one of the things of `AfterAck`. -/
theorem ackSlotDecidesTheNextByteOrPhase : Obligations.AckSlotDecidesTheNextByteOrPhase := by
  intro s hi hrow
  have hsel := (selects_iff_matches .uTxAckH1).2 hrow
  obtain ⟨e, he⟩ := Engine.afterAck_some (e := s.eng) hi.first_in_wdata hi.index_in_wdata
  have hack := Engine.afterAck_effect he
  refine ⟨(hack.execUTxAckH1_eq hsel).trans (congrArg Host.Outcome.next ?_), fun _ => hi.first_in_wdata,
    fun _ _ => hi.index_in_wdata⟩
  simp only [State.arm, State.setClock, State.emit]
  congr 1
  cases hack with
  | nack hnack => simp [hnack]
  | toRead hnack hph hdir => simp [hnack, hph, hdir]
  | toWrite b hnack hph hdir hb => simp [hnack, hph, hdir, List.getD_eq_getElem?_getD, hb]
  | nextByte b hnack hph hlt hb => simp [hnack, hph, hlt, List.getD_eq_getElem?_getD, hb, ofNat_toNat_succ]
  | restart hnack hph hge hr hrs =>
    simp [hnack, hph, hge.not_gt, toNat_pos_of_ne_zero hr, hrs, ofNat_toNat_succ]
  | stopThenRead hnack hph hge hr hrs =>
    simp [hnack, hph, hge.not_gt, toNat_pos_of_ne_zero hr, hrs, ofNat_toNat_succ]
  | toStop hnack hph hge hr => simp [hnack, hph, hge.not_gt, hr, ofNat_toNat_succ]

/-! ### The two polls -/

/-- R167, R170: while SCL reads low a poll keeps the hold. -/
theorem performUop_poll_of_low {s : State} {i : Instr} (hi : i = .uTxAckPoll ∨ i = .uRxBitPoll)
    (hsel : decodeUop s.uop = some i) (hlow : s.clockLevel = false) :
    performUop i s = .next (s.emit (.readScl false)) := by
  have hne : ¬s.clockLevel = true := by simp [hlow]
  rcases hi with rfl | rfl
  · exact microOp_selected hsel (congrArg some (if_neg hne))
  · exact microOp_selected hsel (congrArg some (if_neg hne))

/-- Settles O20: one branch for each level of SCL. -/
theorem ackPollWaitsAndSamples : Obligations.AckPollWaitsAndSamples := by
  intro s hrow
  have hsel := (selects_iff_matches .uTxAckPoll).2 hrow
  refine ⟨performUop_poll_of_low (.inl rfl) hsel, fun hhigh => ?_, fun hl => ?_⟩
  · refine (microOp_selected hsel (congrArg some (if_pos hhigh))).trans ?_
    simp [State.arm, State.emit, State.dataLevel, State.pins]
  · obtain ⟨hw, -⟩ := (selects_uTxAckPoll s.eng _).1 hsel
    obtain ⟨hscl, hsda⟩ := hl.wait_released hw
    simp [hscl, hsda]

/-- R170: `(x << 1 | v)[7:0]` drops the top bit of `x` and appends `v`. -/
theorem shiftIn_eq_append (x : Byte) (v : Bool) : shiftIn x v = x.extractLsb' 0 7 ++ BitVec.ofBool v := by
  cases v <;> revert x <;> decide

/-- Settles O22: one branch for each level of SCL, and the shift is `shiftIn`. -/
theorem receivePollWaitsAndShifts : Obligations.ReceivePollWaitsAndShifts := by
  refine ⟨fun s hrow => ?_, fun x b => ?_⟩
  · have hsel := (selects_iff_matches .uRxBitPoll).2 hrow
    refine ⟨performUop_poll_of_low (.inr rfl) hsel, fun hhigh => (execURxBitPoll_of_high hsel hhigh).trans ?_⟩
    simp [State.arm, State.emit, State.dataLevel, shiftIn_eq_append]
  · simpa only [bitsMsbFirst, List.foldl_map, shiftIn_eq_append] using foldl_shiftIn x b

/-! ### A received byte -/

/-- Settles O23: the walk keeps the index inside `rbuf`. -/
theorem eighthBitStoresTheByte : Obligations.EighthBitStoresTheByte := by
  intro s hi hrow
  have hsel := (selects_iff_matches .uRxBitH1).2 hrow
  obtain ⟨hph, -, -⟩ := (selects_uRxBitH1 s.eng).1 hsel
  have hlt : s.eng.byte.toNat < s.cfg.rmax := (hi.read_byte hph).trans_le hi.rcnt_le
  refine ⟨_, execURxBitH1_of_lt hsel hlt, fun a => ?_, hlt⟩
  by_cases hlast : s.eng.bit + 1#4 = 8#4
  · by_cases ha : a = s.eng.byte.toNat
    · simp [hlast, ha]
    · simp [hlast, ha, Memory.read_write_ne]
  · simp [hlast]

/-- Settles O24: both halves ask whether the byte is the last one. -/
theorem masterAckMicroOps : Obligations.MasterAckMicroOps := by
  refine fun s => ⟨fun hrow => ?_, fun hrow => ?_⟩
  · have hsel := (selects_iff_matches .uRxMackH0).2 hrow
    exact (microOp_selected hsel rfl).trans (by rw [State.setData_setClock]; rfl)
  · have hsel := (selects_iff_matches .uRxMackH1).2 hrow
    refine microOp_selected hsel (congrArg some ?_)
    by_cases hlast : s.eng.byte.toNat + 1 = s.latch.rcnt.toNat <;>
      simp [State.lastByte, hlast, State.arm, State.setClock, State.emit]

end Sys2Proof.Machine
end

section
/-! PROOFS. The family of spec/40_engine.md over several steps: a NACK ends in STOP and FAILED (R178, R344), the read
phase follows the write phase with or without a STOP (R155, R177), and a hold has no timeout (R161, R382). -/

namespace Sys2Proof.Machine

/-! ### TICKs from the ACK slot on -/

/-- R160: on the code 1 the next of several steps performs what `exec` is said to do in the row that the armed engine
selects. -/
theorem steps_tick_of_row {s u : State} {i : Instr} {n : Nat} {evs : List (BitVec 3)} {v m : BitVec 10}
    (herr : ErrInv s) (hin : (s.inputs.take (n + 1)).map Pins.ev = 1#3 :: evs) (harmed : s.eng.armed = true)
    (hsel : decodeUop s.tickSel = some i) (hu : s.disarm.tickSel &&& m = v → exec i s.disarm = .next u)
    (hrow : (i, v, m) ∈ uopRows := by decide) :
    steps (n + 1) s = steps n u.advance ∧ ErrInv u.advance ∧ (u.advance.inputs.take n).map Pins.ev = evs :=
  steps_tick herr hin harmed hsel ((performUop_eq_exec hsel _).trans (hu ((selects_iff_matches i hrow).1 hsel)))

/-- R168: on the code 1 the next of several steps ends the ACK slot: SCL is lowered and the engine has moved on. -/
theorem AfterAck.steps_tick {s : State} {e : Engine} {n : Nat} {evs : List (BitVec 3)}
    (h : AfterAck s.disarm.eng s.latch e) (herr : ErrInv s) (hph : s.eng.phase = .addr ∨ s.eng.phase = .write)
    (hbit : s.eng.bit = 8#4) (hhalf : s.eng.half = true) (harmed : s.eng.armed = true)
    (hin : (s.inputs.take (n + 1)).map Pins.ev = 1#3 :: evs) :
    let u := ({ s.disarm.setClock false with eng := e } : State).arm.advance
    steps (n + 1) s = steps n u ∧ ErrInv u ∧ (u.inputs.take n).map Pins.ev = evs :=
  have hsel := (selects_uTxAckH1 s.eng).2 ⟨hph, hbit, hhalf⟩
  Machine.steps_tick herr hin harmed hsel (h.execUTxAckH1_eq hsel)

/-- Settles O57: U.TX.ACK.H1 takes the NACK branch, then the two halves of STOP run. -/
theorem nackStopsAndFails : Obligations.NackStopsAndFails := by
  intro s herr hph hbit hhalf hnack harmed hin
  have hack : AfterAck s.disarm.eng s.latch _ := .nack hnack
  obtain ⟨hack, herr, hin⟩ := hack.steps_tick herr hph hbit hhalf harmed hin
  obtain ⟨hup, herr, hin⟩ := steps_tick_of_row herr hin rfl ((selects_uStopH0 _).2 ⟨rfl, rfl⟩)
    fun h => ((stopMicroOps _).1 h).1
  obtain ⟨hstop, -, -⟩ := steps_tick_of_row herr hin rfl ((selects_uStopH1 _).2 ⟨rfl, rfl⟩)
    fun h => ((stopMicroOps _).2 h).1
  rw [hack, hup, hstop, steps]
  simp [State.arm, State.advance, List.drop_add_one_eq_tail_drop]

/-- Settles O58: U.TX.ACK.H1 goes to START with `e_rs`, or to STOP with `e_next`, and both come to U.START. -/
theorem readPhaseFollowsTheWritePhase : Obligations.ReadPhaseFollowsTheWritePhase := by
  intro s herr hph hbit hhalf hnack _ hrs hnext harmed hlast hread
  have hna : s.eng.phase ≠ .addr := by simp [hph]
  refine ⟨fun hflag hin => ?_, fun hflag hin => ?_⟩
  · have hack : AfterAck s.disarm.eng s.latch _ := .restart hnack hna hlast hread hflag
    obtain ⟨hack, herr, hin⟩ := hack.steps_tick herr (.inr hph) hbit hhalf harmed hin
    obtain ⟨hrelease, herr, hin⟩ := steps_tick_of_row herr hin rfl ((selects_uStartRs _).2 ⟨rfl, rfl⟩)
      fun h => ((startMicroOps _).1 h).1
    obtain ⟨hstart, -, -⟩ := steps_tick_of_row herr hin rfl ((selects_uStart _).2 ⟨rfl, rfl⟩)
      fun h => ((startMicroOps _).2 h).1
    rw [hack, hrelease, hstart, steps]
    simp [State.arm, State.advance, List.drop_add_one_eq_tail_drop, ofNat_toNat_succ, harmed, hrs]
  · have hack : AfterAck s.disarm.eng s.latch _ := .stopThenRead hnack hna hlast hread hflag
    obtain ⟨hack, herr, hin⟩ := hack.steps_tick herr (.inr hph) hbit hhalf harmed hin
    obtain ⟨hup, herr, hin⟩ := steps_tick_of_row herr hin rfl ((selects_uStopH0 _).2 ⟨rfl, rfl⟩)
      fun h => ((stopMicroOps _).1 h).1
    obtain ⟨hstop, herr, hin⟩ := steps_tick_of_row herr hin rfl ((selects_uStopH1 _).2 ⟨rfl, rfl⟩)
      fun h => ((stopMicroOps _).2 h).1
    obtain ⟨hstart, -, -⟩ := steps_tick_of_row herr hin rfl ((selects_uStart _).2 ⟨rfl, hrs⟩)
      fun h => ((startMicroOps _).2 h).1
    rw [hack, hup, hstop, hstart, steps]
    simp [State.arm, State.advance, List.drop_add_one_eq_tail_drop, ofNat_toNat_succ, harmed, hnext]

/-! ### A stretched clock -/

/-- R161, R167, R170: with the invariants a POLL that reads SCL low leaves only its event. -/
theorem Inv.step_of_stretched {s : State} (hi : Inv s) (hw : s.eng.wait = true) (hev : s.pins.ev = 2#3)
    (hscl : s.pins.scl = false) : step s = .next (s.emit (.readScl false)).advance := by
  have hlow : s.clockLevel = false := by simp [State.clockLevel, hscl]
  have hpoll : execEvPoll s = .next (s.emit (.readScl false)) := by
    rcases hi.engine.wait_poll hw with hsel | hsel
    · exact (execEvPoll_of_selected hw hsel).trans (performUop_poll_of_low (.inl rfl) hsel hlow)
    · exact (execEvPoll_of_selected hw hsel).trans (performUop_poll_of_low (.inr rfl) hsel hlow)
  rw [step_of_decodeEv (i := .evPoll) hi.err.reservedHeld_eq_false (hev ▸ rfl)]
  exact congrArg afterStep hpoll

/-- Settles O59, by induction on the number of POLLs: each keeps the invariants and the hold. -/
theorem stretchedHoldHasNoTimeout : Obligations.StretchedHoldHasNoTimeout := by
  intro n
  induction n with
  | zero => intro s _ _ _; simp [steps]
  | succ n ih =>
    intro s hi hw hin
    obtain ⟨hpins, hin⟩ := inputs_take_cons hin
    obtain ⟨hev, hscl⟩ := Prod.mk.inj hpins
    have hstep := hi.step_of_stretched hw hev hscl
    rw [steps_succ hstep, ih _ (stepKeepsTheInvariant _ _ hi hstep) hw hin]
    simp [State.advance, State.emit, List.replicate_succ, Nat.add_assoc, Nat.add_comm 1 n]

end Sys2Proof.Machine
end

section
/-! PROOFS. The family of spec/41_sequencer.md: what EV.DISPATCH performs (R240), the seven dispatch operations in full
(R241 to R247), and that ERROR is left only by SEQ_INIT or RESET (R232). -/

namespace Sys2Proof.Machine

/-! ### The event that performs a dispatch operation -/

/-- Settles O12: a DISPATCH performs what its selector matches, and with the invariants that can be done. -/
theorem dispatchConsumesOneCompletion : Obligations.DispatchConsumesOneCompletion :=
  ⟨fun s _ hp hsel => (execEvDispatch_of_selected hp hsel).trans (performSeqOp_eq_exec hsel s.consumeCompletion),
    fun _ => exec_evDispatch_of_not_cplPend, fun _ hi hp => hi.execEvDispatch_next hp⟩

/-! ### Selectors and the sequencer's state -/

/-- R46: a code names one state. -/
@[simp] theorem SeqState.ofCode_code (st : SeqState) : SeqState.ofCode st.code = some st := by cases st <;> rfl

/-- R114: a selector that is matched in full tells the sequencer's state. -/
theorem state_of_matches {s : State} {st : SeqState} {ok : Bool}
    (h : s.seqop &&& 0x1F#5 = st.code ++ BitVec.ofBool ok) : s.seq.state = st := by
  have hsel : s.seqop = st.code ++ BitVec.ofBool ok := BitVec.and_allOnes.symm.trans h
  have hcode : s.seq.state.code = st.code := by
    rw [← (seqop_fields s).1, hsel, BitVec.extractLsb'_append_eq_left]
  simpa using congrArg SeqState.ofCode hcode

/-- R121: a selector whose bit 0 is clear says that the transaction failed. -/
theorem cplOk_eq_false_of_matches {s : State} (h : s.seqop &&& 0x01#5 = 0x00#5) : s.seq.cplOk = false := by
  rw [← (seqop_fields s).2]
  have hbit := congrArg (BitVec.getLsbD · 0) h
  simpa using hbit

/-- R121: in an active state a failed transaction selects S.FAIL. -/
theorem selects_sFail {s : State} (hact : s.seq.state.active = true) (hok : s.seq.cplOk = false) :
    decodeSeqOp s.seqop = some .sFail := by
  rw [State.seqop, decodeSeqOp_code, if_pos hact, hok]
  rfl

/-- In a state that selects it, a dispatch operation does its work. -/
theorem seqOp_of_selected {i : Instr} {f : State → Result} {s : State} (hsel : decodeSeqOp s.seqop = some i) :
    seqOp i f s = f s :=
  if_pos hsel

/-! ### Operations that issue a transaction -/

/-- R231, R234, R235: while the engine is not busy, entering a state begins that state's command. -/
theorem issueStep_begins {s : State} (k : Issuing) (hbusy : s.eng.busy = false) :
    ∃ txn, IsCommand s.cfg (storeBytes s.cfg k) (storeReads s.cfg k) txn ∧
      issueStep k s = .next (({ s with seq := { s.seq with state := k.toState } } : State).begun txn .seq) :=
  ⟨storeTxn s.cfg s.draws k, storeTxn_isCommand .., issueStep_next.2 ⟨hbusy, (State.enter_begun s k).symm⟩⟩

/-- R244, R246: entering the state that the sequencer is in begins its command again. -/
theorem issueStep_begins_again {s : State} (k : Issuing) (hbusy : s.eng.busy = false) (hst : s.seq.state = k.toState) :
    ∃ txn, IsCommand s.cfg (storeBytes s.cfg k) (storeReads s.cfg k) txn ∧
      issueStep k s = .next (s.begun txn .seq) := by
  have h := issueStep_begins k hbusy
  rwa [← hst] at h

/-- Settles O27: each of the three selectors matches its row, whose work is Issue. -/
theorem finishedWriteOrReadAdvancesTheSequencer : Obligations.FinishedWriteOrReadAdvancesTheSequencer := by
  intro s hbusy
  obtain ⟨hreset, hcal, -, htrig, -⟩ := dispatchSelectorMatchesItsRow s.seqop
  refine ⟨fun h => ?_, fun h => ?_, fun h => ?_⟩
  · rw [exec, execSResetOk, seqOp_of_selected (hreset.1 h)]
    exact issueStep_begins .calibrate hbusy
  · rw [exec, execSCalOk, seqOp_of_selected (hcal.1 h)]
    exact issueStep_begins .pollCal hbusy
  · rw [exec, execSTrigOk, seqOp_of_selected (htrig.1 h)]
    exact issueStep_begins .pollMeas hbusy

/-- Settles O28: one branch for each value of the busy bit, and for each value of the cal bit where busy is clear. -/
theorem calibrationPollBranches : Obligations.CalibrationPollBranches := by
  intro s h
  obtain ⟨-, -, hpollcal, -⟩ := dispatchSelectorMatchesItsRow s.seqop
  rw [exec, execSPollcalOk, seqOp_of_selected (hpollcal.1 h)]
  refine ⟨fun hidle (hbusy : statusBusy s.cfg s.statusByte = true) => ?_,
    fun hidle (hbusy : statusBusy s.cfg s.statusByte = false) (hcal : statusCal s.statusByte = true) => ?_,
    fun (hbusy : statusBusy s.cfg s.statusByte = false) (hcal : statusCal s.statusByte = false) => ?_⟩
  · rw [hbusy]
    exact issueStep_begins_again .pollCal hidle (state_of_matches (ok := true) h)
  · rw [hbusy, hcal]
    exact issueStep_begins .trigger hidle
  · rw [hbusy, hcal]
    rfl

/-- Settles O29: one branch for each value of the busy bit. -/
theorem measurementPollBranches : Obligations.MeasurementPollBranches := by
  intro s hidle h
  obtain ⟨-, -, -, -, hpollmeas, -⟩ := dispatchSelectorMatchesItsRow s.seqop
  rw [exec, execSPollmeasOk, seqOp_of_selected (hpollmeas.1 h)]
  refine ⟨fun (hbusy : statusBusy s.cfg s.statusByte = true) => ?_,
    fun (hbusy : statusBusy s.cfg s.statusByte = false) => ?_⟩
  · rw [hbusy]
    exact issueStep_begins_again .pollMeas hidle (state_of_matches (ok := true) h)
  · rw [hbusy]
    exact issueStep_begins .read hidle

/-! ### Operations that issue none -/

/-- Settles O26: the selector matches S.FAIL's row, whose work is the fault entry. -/
theorem failedTransactionEntersError : Obligations.FailedTransactionEntersError := by
  intro s hact h
  rw [exec, execSFail, seqOp_of_selected (selects_sFail hact (cplOk_eq_false_of_matches h))]
  rfl

/-- Fields that do not overlap, put beside each other by shifts, add up with their weights. -/
theorem toNat_or_fields {a b c : Raw} {i j : Nat} (ha : a.toNat * 2 ^ i < 2 ^ 20)
    (hb : b.toNat * 2 ^ j + c.toNat < 2 ^ i) (hc : c.toNat < 2 ^ j) (hi : i ≤ 20) :
    (a <<< i ||| b <<< j ||| c).toNat = a.toNat * 2 ^ i + b.toNat * 2 ^ j + c.toNat := by
  have hle : 2 ^ i ≤ 2 ^ 20 := Nat.pow_le_pow_right (by decide) hi
  rw [← Nat.shiftLeft_eq] at ha hb
  rw [BitVec.toNat_or, BitVec.toNat_or, BitVec.toNat_shiftLeft, BitVec.toNat_shiftLeft, Nat.mod_eq_of_lt ha,
    Nat.mod_eq_of_lt (by omega), Nat.or_assoc, ← Nat.shiftLeft_add_eq_or_of_lt hc, ← Nat.shiftLeft_add_eq_or_of_lt hb,
    Nat.shiftLeft_eq, Nat.shiftLeft_eq, Nat.add_assoc]

/-- R256: the reference cut as arithmetic. -/
theorem referenceLayout_toNat (b : Nat → Byte) :
    (referenceLayout b).1.toNat = (b 1).toNat * 2 ^ 12 + (b 2).toNat * 2 ^ 4 + (b 3).toNat / 2 ^ 4 ∧
      (referenceLayout b).2.toNat = (b 3).toNat % 2 ^ 4 * 2 ^ 16 + (b 4).toNat * 2 ^ 8 + (b 5).toNat := by
  have hbyte (x : Byte) : (x.setWidth 20).toNat = x.toNat := BitVec.toNat_setWidth_of_le (by decide)
  have hhigh : ((b 3).setWidth 20 >>> 4).toNat = (b 3).toNat / 2 ^ 4 := by
    rw [BitVec.toNat_ushiftRight, hbyte, Nat.shiftRight_eq_div_pow]
  have hlow : (b 3 &&& 0x0F#8).toNat = (b 3).toNat % 2 ^ 4 :=
    (BitVec.toNat_and ..).trans (Nat.and_two_pow_sub_one_eq_mod _ 4)
  constructor
  · have h1 := (b 1).isLt
    have h2 := (b 2).isLt
    have h3 := (b 3).isLt
    refine (toNat_or_fields ?_ ?_ ?_ (by decide)).trans (by rw [hhigh, hbyte, hbyte]) <;>
      simp only [hhigh, hbyte] <;> omega
  · have h4 := (b 4).isLt
    have h5 := (b 5).isLt
    refine (toNat_or_fields ?_ ?_ ?_ (by decide)).trans (by rw [hbyte, hbyte, hbyte, hlow]) <;>
      simp only [hlow, hbyte] <;> omega

/-- Settles O30: the selector matches S.READ.OK's row, whose work is the reading; the reference layout cuts it. -/
theorem readCompletionStoresTheReading : Obligations.ReadCompletionStoresTheReading := by
  intro s h
  obtain ⟨-, -, -, -, -, hread, -⟩ := dispatchSelectorMatchesItsRow s.seqop
  refine ⟨by rw [exec, execSReadOk, seqOp_of_selected (hread.1 h)], fun hlayout => ?_⟩
  rw [rawValues, hlayout]
  exact referenceLayout_toNat s.rbuf.read

/-! ### The conversion -/

/-- R257: no humidity is cut off at 32 bits. -/
theorem humWord_toNat (rh : Raw) : (humWord rh).toNat = rh.toNat * 625 / 2 ^ 16 := by
  have h := rh.isLt
  rw [humWord, BitVec.toNat_ofNat, Nat.shiftRight_eq_div_pow, Nat.mod_eq_of_lt (by omega)]

/-- R258: no temperature is cut off at 32 bits. -/
theorem tempWord_toInt (rt : Raw) : (tempWord rt).toInt = (rt.toNat * 625 / 2 ^ 15 : Nat) - 5000 := by
  have h := rt.isLt
  rw [tempWord, BitVec.toInt_ofInt, Nat.shiftRight_eq_div_pow, Int.bmod_eq_of_le (by omega) (by omega)]

/-- Settles O50: the two quotients differ by a factor of 16 above and below, and the bounds are those of the
reading. -/
theorem conversionIsTheExactFloor : Obligations.ConversionIsTheExactFloor := by
  refine ⟨fun rh => ⟨humWord_toNat rh, ?_, humWord_le rh⟩, fun rt => ⟨tempWord_toInt rt, ?_, tempWord_bounds rt⟩⟩
  · rw [humWord_toNat]
    omega
  · rw [tempWord_toInt]
    omega

/-- R259: `625 = 2^9 + 2^6 + 2^5 + 2^4 + 1`. -/
theorem mul_625_eq_shifts (n : Nat) : n * 625 = (n <<< 9) + (n <<< 6) + (n <<< 5) + (n <<< 4) + n := by
  simp only [Nat.shiftLeft_eq]
  omega

/-- Settles O51: the product is the sum of shifts, a quotient by a constant is monotone, and the model computes the
worked examples. -/
theorem conversionByShiftsIsMonotone : Obligations.ConversionByShiftsIsMonotone := by
  refine ⟨fun x => ⟨mul_625_eq_shifts _, ?_, ?_⟩, fun x y hxy => ⟨?_, ?_⟩, by decide, by decide, by decide, by decide,
    by decide, by decide⟩
  · rw [humWord_toNat, ← mul_625_eq_shifts, Nat.shiftRight_eq_div_pow]
  · rw [tempWord_toInt, ← mul_625_eq_shifts, Nat.shiftRight_eq_div_pow]
  · rw [humWord_toNat, humWord_toNat]
    exact Nat.div_le_div_right (Nat.mul_le_mul_right _ hxy)
  · rw [tempWord_toInt, tempWord_toInt]
    omega

/-! ### ERROR -/

/-- R150: a BEGIN leaves the owner, or sets it to the one it is called for. -/
theorem State.engineBegin_owner (s : State) (t : Txn) (o : Owner) :
    (s.engineBegin t o).eng.owner = s.eng.owner ∨ (s.engineBegin t o).eng.owner = o := by
  by_cases hz : t.wcnt = 0#8 ∧ t.rcnt = 0#8
  · rw [State.engineBegin_zero o hz.1 hz.2]
    exact .inl rfl
  · rw [State.engineBegin_begun s o (not_and_or.1 hz)]
    exact .inr rfl

/-- R301 to R304: an access other than the two commands to the sequencer leaves the sequencer alone and begins no
transaction for it; only CMD.ENG_BEGIN writes the latches. -/
theorem performHostOp_keeps_seq {i : Instr} {s t : State} (h : performHostOp i s = .next t) (hinit : i ≠ .cmdSeqInit)
    (hreq : i ≠ .cmdSeqRequestRead) :
    t.seq = s.seq ∧ (t.eng.owner = s.eng.owner ∨ t.eng.owner = .host) ∧ (t.latch = s.latch ∨ i = .cmdEngBegin) := by
  cases i
  case cmdSeqInit => exact absurd rfl hinit
  case cmdSeqRequestRead => exact absurd rfl hreq
  case cmdEngBegin =>
    cases h
    split_ifs
    case neg => exact ⟨State.engineBegin_seq .., State.engineBegin_owner .., .inr rfl⟩
    all_goals exact ⟨rfl, .inl rfl, .inr rfl⟩
  case wrWbuf =>
    cases h
    split <;> exact ⟨rfl, .inl rfl, .inl rfl⟩
  -- What is left writes a result, a descriptor register, `viol` or nothing, or is no access of the host.
  all_goals (cases h <;> exact ⟨rfl, .inl rfl, .inl rfl⟩)

/-- R232, R303: outside IDLE a request for a reading has no effect. -/
theorem execCmdSeqRequestRead_of_not_idle {s : State} (h : s.seq.state ≠ .idle) :
    execCmdSeqRequestRead s = .next s :=
  congrArg _ (if_pos h)

/-- R233: in ERROR no selector matches a row. -/
theorem decodeSeqOp_of_error {s : State} (h : s.seq.state = .error) : decodeSeqOp s.seqop = none := by
  rw [State.seqop, decodeSeqOp_code, h]
  rfl

/-- Settles O49, by the event of the step: a micro-operation keeps state, owner and latches, a DISPATCH has no row to
perform, and of the host's accesses only SEQ_INIT reaches the sequencer. -/
theorem errorIsTerminal : Obligations.ErrorIsTerminal := by
  intro s herr
  have hreq : execCmdSeqRequestRead s = .next s := execCmdSeqRequestRead_of_not_idle (by simp [herr])
  refine ⟨hreq, fun t h => ?_⟩
  obtain ⟨-, i, u, hi, hu, rfl⟩ := step_next h
  have hw := encode_of_decodeEv hi
  rcases decodeEv_cases hi with rfl | rfl | rfl | rfl | rfl <;> have hev := (OpWord.ev.inj hw).symm
  · by_cases hinit : decodeHostOp s.cfg s.pins.host = .cmdSeqInit
    · exact .inr (.inl ⟨hev, hinit⟩)
    by_cases hrequest : decodeHostOp s.cfg s.pins.host = .cmdSeqRequestRead
    · rw [exec, execEvHost, hrequest, performHostOp, hreq] at hu
      cases hu
      exact .inr (.inr ⟨herr, .inl rfl, .inl rfl⟩)
    obtain ⟨hseq, howner, hlatch⟩ := performHostOp_keeps_seq hu hinit hrequest
    exact .inr (.inr ⟨(congrArg Seq.state hseq).trans herr, howner, hlatch.imp_right fun h => ⟨hev, h⟩⟩)
  · obtain ⟨-, j, hsel, hp⟩ := execEvTick_next hu
    have hf := performUop_frame hsel hp
    exact .inr (.inr ⟨hf.state.trans herr, .inl hf.owner, .inl hf.latch⟩)
  · obtain ⟨-, j, hsel, hp⟩ := execEvPoll_next hu
    have hf := performUop_frame hsel hp
    exact .inr (.inr ⟨hf.state.trans herr, .inl hf.owner, .inl hf.latch⟩)
  · obtain ⟨-, j, hsel, -⟩ := execEvDispatch_next hu
    rw [decodeSeqOp_of_error herr] at hsel
    cases hsel
  · exact .inl hev

end Sys2Proof.Machine
end

section
/-! PROOFS. The family of spec/42_host_port.md: EV.HOST performs the one access that its word names (R290), the commands
(R300 to R304), the reads (R312 to R323) and the writes that store (R325 to R329). -/

namespace Sys2Proof.Machine

/-! ### One access a step -/

/-- Settles O9: an event's host access is performed as `exec` performs it, and every access answers a next state. -/
theorem hostStepPerformsOneAccess : Obligations.HostStepPerformsOneAccess :=
  ⟨rfl, fun s => ⟨performHostOp_eq_exec .., performHostOp_decodeHostOp_next s.cfg s.pins.host s⟩⟩

/-- R118: a row of the map selects its operation. -/
theorem selects_of_hostRow {v m : BitVec 39} {f : Params → BitVec 39 → Instr}
    (hrow : ∀ p, ⟨v, m, f p⟩ ∈ hostRows p := by simp [hostRows]) : Selects v m f :=
  fun p w h => decodeHostOp_of_hostRow _ (hrow p) w h

/-! ### Commands -/

/-- R342, R343: a command that violates the contract sets `viol` and changes nothing else. -/
theorem exec_of_violates {s : State} {i : Instr} (h : s.violates i) : exec i s = .next { s with viol := true } := by
  rcases h with ⟨rfl, h⟩ | ⟨rfl, h⟩ | ⟨rfl, hidle, hbusy⟩ | ⟨op, rfl⟩
  · rw [exec, execCmdEngBegin]
    split_ifs with hbusy hact hcount
    case neg => exact absurd h (not_or.2 ⟨hbusy, not_or.2 ⟨hact, hcount⟩⟩)
    all_goals rfl
  · exact congrArg _ (if_pos (by simpa [or_assoc] using h))
  · exact congrArg _ ((if_neg (not_not.2 hidle)).trans (if_pos hbusy))
  · rfl

/-- R301: an ENG_BEGIN that violates nothing begins the host's transaction. -/
theorem execCmdEngBegin_of_accepted {s : State} (h : ¬s.violates .cmdEngBegin) :
    execCmdEngBegin s = .next (s.engineBegin s.hostTxn .host) := by
  rw [execCmdEngBegin, if_neg fun hbusy => h (.inl ⟨rfl, .inl hbusy⟩),
    if_neg fun hact => h (.inl ⟨rfl, .inr (.inl hact)⟩), if_neg fun hcount => h (.inl ⟨rfl, .inr (.inr hcount)⟩)]

/-- R302: a SEQ_INIT that violates nothing performs SeqInit. -/
theorem execCmdSeqInit_of_accepted {s : State} (h : ¬s.violates .cmdSeqInit) :
    execCmdSeqInit s = .next s.seqInit :=
  congrArg _ (if_neg fun hv => h (.inr (.inl ⟨rfl, by simpa [or_assoc] using hv⟩)))

/-- R303: a SEQ_REQUEST_READ in IDLE with the engine not busy performs SeqRequestRead. -/
theorem execCmdSeqRequestRead_of_idle {s : State} (hidle : s.seq.state = .idle) (hbusy : s.eng.busy = false) :
    execCmdSeqRequestRead s = .next s.seqRequestRead :=
  congrArg _ ((if_neg (not_not.2 hidle)).trans (if_neg (by simp [hbusy])))

/-- Settles O31: the two commands without a transaction. -/
theorem nopAndReservedCommands : Obligations.NopAndReservedCommands :=
  ⟨selects_of_hostRow, fun _ => rfl, selects_of_hostRow, fun _ op => exec_of_violates (.inr (.inr (.inr ⟨op, rfl⟩)))⟩

/-- Settles O32: what is not refused is BEGIN, which does nothing where both counts are 0. -/
theorem engineBeginCommand : Obligations.EngineBeginCommand := by
  refine ⟨selects_of_hostRow, fun s => ⟨exec_of_violates, fun h hw hr => ?_, fun h hne => ?_⟩⟩
  · exact (execCmdEngBegin_of_accepted h).trans (congrArg _ (State.engineBegin_zero (t := s.hostTxn) .host hw hr))
  · exact (execCmdEngBegin_of_accepted h).trans (congrArg _ (s.engineBegin_begun (t := s.hostTxn) .host hne))

/-- Settles O33: what is not refused is SeqInit, which enters RESET. -/
theorem sequencerInitCommand : Obligations.SequencerInitCommand :=
  ⟨selects_of_hostRow, fun s => ⟨exec_of_violates, fun h =>
    ⟨_, storeTxn_isCommand s.cfg s.draws .reset,
      (execCmdSeqInit_of_accepted h).trans (congrArg _ (State.enter_begun _ .reset))⟩⟩⟩

/-- Settles O34: outside IDLE there is no effect, and in IDLE what is not refused is SeqRequestRead, which enters
TRIGGER. -/
theorem requestReadCommand : Obligations.RequestReadCommand :=
  ⟨selects_of_hostRow, fun s => ⟨execCmdSeqRequestRead_of_not_idle,
    fun hidle hbusy => exec_of_violates (.inr (.inr (.inl ⟨rfl, hidle, hbusy⟩))),
    fun hidle hbusy => ⟨_, storeTxn_isCommand s.cfg s.draws .trigger,
      (execCmdSeqRequestRead_of_idle hidle hbusy).trans (congrArg _ (State.enter_begun _ .trigger))⟩⟩⟩

/-! ### Reads -/

/-- R315: a flag at bit 0 is the word 1 or 0. -/
theorem flag_zero (v : Bool) : flag v 0 = if v = true then 1#32 else 0#32 := by cases v <;> rfl

/-- R315: what RD.TXN_FLAGS returns. -/
theorem exec_rdTxnFlags (s : State) :
    exec .rdTxnFlags s = .next (s.hostReturn (if s.txn.rs = true then 1#32 else 0#32)) := by
  rw [exec, execRdTxnFlags, flag_zero]

/-- R56: the slices of PARAMS. -/
theorem paramsWord_slices (p : Params) :
    ((paramsWord p).extractLsb' 0 8).toNat = p.wmax ∧ ((paramsWord p).extractLsb' 8 8).toNat = p.rmax ∧
      (paramsWord p).extractLsb' 16 7 = p.sensorAddr ∧ (paramsWord p).extractLsb' 23 9 = 0#9 := by
  obtain ⟨-, hw, -, hr, -⟩ := Params.bounds p
  refine ⟨?_, ?_, ?_, ?_⟩ <;>
    simp [paramsWord, BitVec.extractLsb'_or, extractLsb'_field_same, extractLsb'_field_disjoint] <;> omega

/-- Settles O35: each word is a row of the map, and each read returns one register. -/
theorem registerReads : Obligations.RegisterReads := by
  refine ⟨selects_of_hostRow, selects_of_hostRow, selects_of_hostRow, selects_of_hostRow, selects_of_hostRow,
    selects_of_hostRow, selects_of_hostRow, selects_of_hostRow, selects_of_hostRow, fun s =>
    ⟨rfl, rfl, rfl, exec_rdTxnFlags s, rfl, rfl, rfl, rfl, paramsWord s.cfg, rfl, ?_⟩⟩
  obtain ⟨hwmax, hrmax, haddr, hhigh⟩ := paramsWord_slices s.cfg
  refine ⟨hwmax, hrmax, haddr, hhigh, fun hcfg => ?_⟩
  rw [hcfg]
  decide

/-- R53: the slices of E_POS. -/
theorem ePosWord_slices (s : State) :
    s.ePosWord.extractLsb' 0 8 = s.eng.byte ∧ s.ePosWord.extractLsb' 8 4 = s.eng.bit ∧
      s.ePosWord.extractLsb' 18 14 = 0#14 := by
  refine ⟨?_, ?_, ?_⟩ <;>
    simp [State.ePosWord, flag, BitVec.extractLsb'_or, extractLsb'_field_same, extractLsb'_field_disjoint]

/-- Settles O37: each bit and slice of E_POS comes from one field, and the fields stand beside each other. -/
theorem positionReadShowsTheEngine : Obligations.PositionReadShowsTheEngine := by
  refine ⟨selects_of_hostRow, fun s => ⟨s.ePosWord, rfl, ?_⟩⟩
  obtain ⟨hbyte, hbit, hhigh⟩ := ePosWord_slices s
  refine ⟨hbyte, hbit, ?_, ?_, ?_, ?_, ?_, ?_, hhigh⟩
  all_goals
    simp only [State.ePosWord, BitVec.getLsbD_or, getLsbD_field, getLsbD_flag]
    simp

/-- Settles O38: the two blocks of the map, and the two reads' own results. -/
theorem bufferReads : Obligations.BufferReads :=
  ⟨selects_of_hostRow, selects_of_hostRow, fun _ _ => ⟨rfl, rfl⟩⟩

/-! ### Writes that store -/

/-- Settles O40: each write stores its slice, which the read of the register returns. -/
theorem descriptorWrites : Obligations.DescriptorWrites := by
  refine ⟨selects_of_hostRow, selects_of_hostRow, selects_of_hostRow, selects_of_hostRow, fun s data =>
    ⟨rfl, rfl, rfl, rfl, fun t h => ?_, fun t h => ?_, fun t h => ?_, fun t h => ?_⟩⟩ <;> cases h
  case refine_4 => exact exec_rdTxnFlags _
  all_goals rfl

/-- R329: inside the buffer WR.WBUF stores its byte. -/
theorem execWrWbuf_of_lt {i : BitVec 4} (data : Word) {s : State} (h : i.toNat < s.cfg.wmax) :
    execWrWbuf i data s = .next { s with wbuf := s.wbuf.write i.toNat (dataByte data) } :=
  congrArg _ (if_pos h)

/-- R329: past the buffer WR.WBUF is ignored. -/
theorem execWrWbuf_of_ge {i : BitVec 4} (data : Word) {s : State} (h : s.cfg.wmax ≤ i.toNat) :
    execWrWbuf i data s = .next s :=
  congrArg _ (if_neg h.not_gt)

/-- Settles O41: a byte reads as it was last written, and a write leaves every other byte alone. -/
theorem writeBufferWrite : Obligations.WriteBufferWrite := by
  refine ⟨selects_of_hostRow, fun s i data => ⟨fun h => ⟨_, execWrWbuf_of_lt data h, fun a => ?_⟩,
    execWrWbuf_of_ge data⟩⟩
  split
  · next ha => rw [ha, Memory.read_write_same, dataByte]
  · next ha => exact Memory.read_write_ne _ _ ha

end Sys2Proof.Machine
end

section
/-! PROOFS. The family of spec/60_exceptions.md: what raises Viol (R342, R343). -/

namespace Sys2Proof.Machine

/-- R120: the word of a micro-operation's row is a selector that selects it. -/
theorem decodeUop_of_encode {i : Instr} {w : BitVec 10} (hwf : WellFormed .reference i = true)
    (hw : encode i = .uop w) : decodeUop w = some i := by
  have hdecode := encodeThenDecode .reference i hwf
  rwa [hw] at hdecode

/-- R110, R111: an operation that takes a next state is an event, or is performed as an access of the host, as a
micro-operation that a selector selects or as a dispatch operation. -/
theorem exec_next_cases {i : Instr} {s t : State} (h : exec i s = .next t) :
    (i = .evHost ∨ i = .evTick ∨ i = .evPoll ∨ i = .evDispatch ∨ i = .evReset) ∨
      performHostOp i s = .next t ∨ (∃ w, decodeUop w = some i ∧ performUop i s = .next t) ∨
      performSeqOp i s = .next t := by
  cases i
  case evHost | evTick | evPoll | evDispatch | evReset => exact .inl (by simp)
  case uStartRs | uStart | uTxBitH0 | uTxBitH1 | uTxAckH0 | uTxAckPoll | uTxAckH1 | uRxBitH0 | uRxBitPoll | uRxBitH1 |
      uRxMackH0 | uRxMackH1 | uStopH0 | uStopH1 =>
    exact .inr (.inr (.inl ⟨_, decodeUop_of_encode rfl rfl, h⟩))
  case sFail | sResetOk | sCalOk | sPollcalOk | sTrigOk | sPollmeasOk | sReadOk => exact .inr (.inr (.inr h))
  -- What is left is an access of the host.
  all_goals exact .inr (.inl h)

/-- R45, R343: an operation other than EV.HOST keeps `viol`, clears it as EV.RESET, or violates the contract. -/
theorem exec_viol {i : Instr} {s t : State} (hne : i ≠ .evHost) (h : exec i s = .next t) :
    t.viol = s.viol ∨ t.viol = false ∨ s.violates i := by
  rcases exec_next_cases h with (rfl | rfl | rfl | rfl | rfl) | hp | ⟨w, hsel, hp⟩ | hp
  · exact absurd rfl hne
  · obtain ⟨-, j, hsel, hp⟩ := execEvTick_next h
    exact .inl (performUop_frame hsel hp).viol
  · obtain ⟨-, j, hsel, hp⟩ := execEvPoll_next h
    exact .inl (performUop_frame hsel hp).viol
  · obtain ⟨-, j, -, hp⟩ := execEvDispatch_next h
    exact .inl (performSeqOp_effect hp).frame.2
  · cases h
    exact .inr (.inl rfl)
  · exact (performHostOp_effect hp).viol.imp_right fun ⟨_, hv⟩ => .inr hv
  · exact .inl (performUop_frame hsel hp).viol
  · exact .inl (performSeqOp_effect hp).frame.2

/-- Settles O46: a violating command is refused, and of the other operations none sets `viol`. -/
theorem refusedCommandChangesOnlyViol : Obligations.RefusedCommandChangesOnlyViol := by
  refine ⟨fun _ _ => exec_of_violates, fun s t i hne hv h ht => ?_⟩
  rcases exec_viol hne h with hkeep | hclear | hv'
  · exact hkeep ▸ ht
  · rw [hclear] at ht
    cases ht
  · exact absurd hv' hv

end Sys2Proof.Machine
end
